-- ==== Sys2Proof/Word.lean ====
section
/-! DEFINITION. The two word types of the core (spec/00_scope.md R4, R5): a byte is 8 bits, a word or an
address is 16 bits. Every width of this hardware is fixed, none is a parameter. -/

namespace Sys2Proof

/-- A byte: registers, memory cells, opcodes and operand bytes (R5, R11, R40). -/
abbrev Byte := BitVec 8

/-- A word: the program counter, addresses and pointers (R5, R14, R40). -/
abbrev Word := BitVec 16

end Sys2Proof
end

