-- ==== Sys2Proof/Syntax.lean ====
section
/-! DEFINITION. The instructions of the core: the thirteen addressing modes (spec/40_addressing.md R91 to R104),
the 56 mnemonics and the ONE inductive `Instr`, one constructor per row of spec/opcode_table.json (R74). A
constructor holds exactly the operand bytes of its format (R71): none, one byte `b`, or the word `w` whose low
byte comes first in memory (R73). -/

namespace Sys2Proof

/-- The addressing-mode tags (R91 to R104; 90_conflicts.md C3). -/
inductive Mode
  | imp | acc | imm | zp | zpx | zpy | abs | abx | aby | ind | izx | izy | rel
  deriving DecidableEq, Repr

/-- How many operand bytes follow the opcode (R70, R71). -/
def Mode.operandBytes : Mode → Nat
  | .imp | .acc => 0
  | .imm | .zp | .zpx | .zpy | .izx | .izy | .rel => 1
  | .abs | .abx | .aby | .ind => 2

/-- The length of an instruction in bytes (R70, R72). -/
def Mode.length (m : Mode) : Nat :=
  m.operandBytes + 1

/-- The 56 mnemonics of R74: the operation a descriptor names. -/
inductive Mnemonic
  | lda | ldx | ldy | sta | stx | sty | and | ora | eor | bit | inc | dec | inx | iny
  | dex | dey | cmp | cpx | cpy | adc | sbc | asl | lsr | rol | ror | pha | php | pla
  | plp | tax | tay | txa | tya | tsx | txs | clc | sec | cli | sei | cld | sed | clv
  | nop | jmp | jsr | rts | brk | rti | bcc | bcs | beq | bne | bpl | bmi | bvc | bvs
  deriving DecidableEq, Repr

/-- The instructions: one constructor per defined opcode byte (R74, R75). -/
inductive Instr
  -- Loads and stores (spec/41_load_store.md R111 to R116).
  | ldaImm (b : Byte)
  | ldaZp (b : Byte)
  | ldaZpx (b : Byte)
  | ldaAbs (w : Word)
  | ldaAbx (w : Word)
  | ldaAby (w : Word)
  | ldaIzx (b : Byte)
  | ldaIzy (b : Byte)
  | ldxImm (b : Byte)
  | ldxZp (b : Byte)
  | ldxZpy (b : Byte)
  | ldxAbs (w : Word)
  | ldxAby (w : Word)
  | ldyImm (b : Byte)
  | ldyZp (b : Byte)
  | ldyZpx (b : Byte)
  | ldyAbs (w : Word)
  | ldyAbx (w : Word)
  | staZp (b : Byte)
  | staZpx (b : Byte)
  | staAbs (w : Word)
  | staAbx (w : Word)
  | staAby (w : Word)
  | staIzx (b : Byte)
  | staIzy (b : Byte)
  | stxZp (b : Byte)
  | stxZpy (b : Byte)
  | stxAbs (w : Word)
  | styZp (b : Byte)
  | styZpx (b : Byte)
  | styAbs (w : Word)
  -- Logic and bit test (spec/42_logic_bit.md R121 to R124).
  | andImm (b : Byte)
  | andZp (b : Byte)
  | andZpx (b : Byte)
  | andAbs (w : Word)
  | andAbx (w : Word)
  | andAby (w : Word)
  | andIzx (b : Byte)
  | andIzy (b : Byte)
  | oraImm (b : Byte)
  | oraZp (b : Byte)
  | oraZpx (b : Byte)
  | oraAbs (w : Word)
  | oraAbx (w : Word)
  | oraAby (w : Word)
  | oraIzx (b : Byte)
  | oraIzy (b : Byte)
  | eorImm (b : Byte)
  | eorZp (b : Byte)
  | eorZpx (b : Byte)
  | eorAbs (w : Word)
  | eorAbx (w : Word)
  | eorAby (w : Word)
  | eorIzx (b : Byte)
  | eorIzy (b : Byte)
  | bitZp (b : Byte)
  | bitAbs (w : Word)
  -- Increment and decrement (spec/43_incdec.md R131 to R136).
  | incZp (b : Byte)
  | incZpx (b : Byte)
  | incAbs (w : Word)
  | incAbx (w : Word)
  | decZp (b : Byte)
  | decZpx (b : Byte)
  | decAbs (w : Word)
  | decAbx (w : Word)
  | inx
  | iny
  | dex
  | dey
  -- Compares (spec/44_compare.md R141 to R143).
  | cmpImm (b : Byte)
  | cmpZp (b : Byte)
  | cmpZpx (b : Byte)
  | cmpAbs (w : Word)
  | cmpAbx (w : Word)
  | cmpAby (w : Word)
  | cmpIzx (b : Byte)
  | cmpIzy (b : Byte)
  | cpxImm (b : Byte)
  | cpxZp (b : Byte)
  | cpxAbs (w : Word)
  | cpyImm (b : Byte)
  | cpyZp (b : Byte)
  | cpyAbs (w : Word)
  -- Add and subtract with carry (spec/45_adc_sbc.md R154, R155).
  | adcImm (b : Byte)
  | adcZp (b : Byte)
  | adcZpx (b : Byte)
  | adcAbs (w : Word)
  | adcAbx (w : Word)
  | adcAby (w : Word)
  | adcIzx (b : Byte)
  | adcIzy (b : Byte)
  | sbcImm (b : Byte)
  | sbcZp (b : Byte)
  | sbcZpx (b : Byte)
  | sbcAbs (w : Word)
  | sbcAbx (w : Word)
  | sbcAby (w : Word)
  | sbcIzx (b : Byte)
  | sbcIzy (b : Byte)
  -- Shifts and rotates (spec/46_shift_rotate.md R161 to R164).
  | aslAcc
  | aslZp (b : Byte)
  | aslZpx (b : Byte)
  | aslAbs (w : Word)
  | aslAbx (w : Word)
  | lsrAcc
  | lsrZp (b : Byte)
  | lsrZpx (b : Byte)
  | lsrAbs (w : Word)
  | lsrAbx (w : Word)
  | rolAcc
  | rolZp (b : Byte)
  | rolZpx (b : Byte)
  | rolAbs (w : Word)
  | rolAbx (w : Word)
  | rorAcc
  | rorZp (b : Byte)
  | rorZpx (b : Byte)
  | rorAbs (w : Word)
  | rorAbx (w : Word)
  -- Stack instructions, transfers, flag instructions, NOP (spec/47_stack_transfer_flag.md R174 to R191).
  | pha
  | php
  | pla
  | plp
  | tax
  | tay
  | txa
  | tya
  | tsx
  | txs
  | clc
  | sec
  | cli
  | sei
  | cld
  | sed
  | clv
  | nop
  -- Control transfer (spec/48_control_flow.md R201 to R214).
  | jmpAbs (w : Word)
  | jmpInd (w : Word)
  | jsr (w : Word)
  | rts
  | brk
  | rti
  | bcc (b : Byte)
  | bcs (b : Byte)
  | beq (b : Byte)
  | bne (b : Byte)
  | bpl (b : Byte)
  | bmi (b : Byte)
  | bvc (b : Byte)
  | bvs (b : Byte)
  deriving DecidableEq, Repr

/-- The operand bytes an instruction carries (R71). -/
inductive Args
  | none
  | byte (b : Byte)
  | word (w : Word)
  deriving DecidableEq, Repr

/-- How many bytes the operand takes in memory (R71). -/
def Args.length : Args → Nat
  | .none => 0
  | .byte _ => 1
  | .word _ => 2

/-- The operand of an instruction as the number the assembler writes (R82), 0 where there is none. -/
def Args.value : Args → Nat
  | .none => 0
  | .byte b => b.toNat
  | .word w => w.toNat

/-- The mnemonic of an instruction (R74). -/
def Instr.mnemonic : Instr → Mnemonic
  | .ldaImm _ => .lda
  | .ldaZp _ => .lda
  | .ldaZpx _ => .lda
  | .ldaAbs _ => .lda
  | .ldaAbx _ => .lda
  | .ldaAby _ => .lda
  | .ldaIzx _ => .lda
  | .ldaIzy _ => .lda
  | .ldxImm _ => .ldx
  | .ldxZp _ => .ldx
  | .ldxZpy _ => .ldx
  | .ldxAbs _ => .ldx
  | .ldxAby _ => .ldx
  | .ldyImm _ => .ldy
  | .ldyZp _ => .ldy
  | .ldyZpx _ => .ldy
  | .ldyAbs _ => .ldy
  | .ldyAbx _ => .ldy
  | .staZp _ => .sta
  | .staZpx _ => .sta
  | .staAbs _ => .sta
  | .staAbx _ => .sta
  | .staAby _ => .sta
  | .staIzx _ => .sta
  | .staIzy _ => .sta
  | .stxZp _ => .stx
  | .stxZpy _ => .stx
  | .stxAbs _ => .stx
  | .styZp _ => .sty
  | .styZpx _ => .sty
  | .styAbs _ => .sty
  | .andImm _ => .and
  | .andZp _ => .and
  | .andZpx _ => .and
  | .andAbs _ => .and
  | .andAbx _ => .and
  | .andAby _ => .and
  | .andIzx _ => .and
  | .andIzy _ => .and
  | .oraImm _ => .ora
  | .oraZp _ => .ora
  | .oraZpx _ => .ora
  | .oraAbs _ => .ora
  | .oraAbx _ => .ora
  | .oraAby _ => .ora
  | .oraIzx _ => .ora
  | .oraIzy _ => .ora
  | .eorImm _ => .eor
  | .eorZp _ => .eor
  | .eorZpx _ => .eor
  | .eorAbs _ => .eor
  | .eorAbx _ => .eor
  | .eorAby _ => .eor
  | .eorIzx _ => .eor
  | .eorIzy _ => .eor
  | .bitZp _ => .bit
  | .bitAbs _ => .bit
  | .incZp _ => .inc
  | .incZpx _ => .inc
  | .incAbs _ => .inc
  | .incAbx _ => .inc
  | .decZp _ => .dec
  | .decZpx _ => .dec
  | .decAbs _ => .dec
  | .decAbx _ => .dec
  | .inx => .inx
  | .iny => .iny
  | .dex => .dex
  | .dey => .dey
  | .cmpImm _ => .cmp
  | .cmpZp _ => .cmp
  | .cmpZpx _ => .cmp
  | .cmpAbs _ => .cmp
  | .cmpAbx _ => .cmp
  | .cmpAby _ => .cmp
  | .cmpIzx _ => .cmp
  | .cmpIzy _ => .cmp
  | .cpxImm _ => .cpx
  | .cpxZp _ => .cpx
  | .cpxAbs _ => .cpx
  | .cpyImm _ => .cpy
  | .cpyZp _ => .cpy
  | .cpyAbs _ => .cpy
  | .adcImm _ => .adc
  | .adcZp _ => .adc
  | .adcZpx _ => .adc
  | .adcAbs _ => .adc
  | .adcAbx _ => .adc
  | .adcAby _ => .adc
  | .adcIzx _ => .adc
  | .adcIzy _ => .adc
  | .sbcImm _ => .sbc
  | .sbcZp _ => .sbc
  | .sbcZpx _ => .sbc
  | .sbcAbs _ => .sbc
  | .sbcAbx _ => .sbc
  | .sbcAby _ => .sbc
  | .sbcIzx _ => .sbc
  | .sbcIzy _ => .sbc
  | .aslAcc => .asl
  | .aslZp _ => .asl
  | .aslZpx _ => .asl
  | .aslAbs _ => .asl
  | .aslAbx _ => .asl
  | .lsrAcc => .lsr
  | .lsrZp _ => .lsr
  | .lsrZpx _ => .lsr
  | .lsrAbs _ => .lsr
  | .lsrAbx _ => .lsr
  | .rolAcc => .rol
  | .rolZp _ => .rol
  | .rolZpx _ => .rol
  | .rolAbs _ => .rol
  | .rolAbx _ => .rol
  | .rorAcc => .ror
  | .rorZp _ => .ror
  | .rorZpx _ => .ror
  | .rorAbs _ => .ror
  | .rorAbx _ => .ror
  | .pha => .pha
  | .php => .php
  | .pla => .pla
  | .plp => .plp
  | .tax => .tax
  | .tay => .tay
  | .txa => .txa
  | .tya => .tya
  | .tsx => .tsx
  | .txs => .txs
  | .clc => .clc
  | .sec => .sec
  | .cli => .cli
  | .sei => .sei
  | .cld => .cld
  | .sed => .sed
  | .clv => .clv
  | .nop => .nop
  | .jmpAbs _ => .jmp
  | .jmpInd _ => .jmp
  | .jsr _ => .jsr
  | .rts => .rts
  | .brk => .brk
  | .rti => .rti
  | .bcc _ => .bcc
  | .bcs _ => .bcs
  | .beq _ => .beq
  | .bne _ => .bne
  | .bpl _ => .bpl
  | .bmi _ => .bmi
  | .bvc _ => .bvc
  | .bvs _ => .bvs

/-- The addressing mode of an instruction (R74). JSR is listed under `abs` for its length and syntax only (R73,
90_conflicts.md C8). -/
def Instr.mode : Instr → Mode
  | .ldaImm _ => .imm
  | .ldaZp _ => .zp
  | .ldaZpx _ => .zpx
  | .ldaAbs _ => .abs
  | .ldaAbx _ => .abx
  | .ldaAby _ => .aby
  | .ldaIzx _ => .izx
  | .ldaIzy _ => .izy
  | .ldxImm _ => .imm
  | .ldxZp _ => .zp
  | .ldxZpy _ => .zpy
  | .ldxAbs _ => .abs
  | .ldxAby _ => .aby
  | .ldyImm _ => .imm
  | .ldyZp _ => .zp
  | .ldyZpx _ => .zpx
  | .ldyAbs _ => .abs
  | .ldyAbx _ => .abx
  | .staZp _ => .zp
  | .staZpx _ => .zpx
  | .staAbs _ => .abs
  | .staAbx _ => .abx
  | .staAby _ => .aby
  | .staIzx _ => .izx
  | .staIzy _ => .izy
  | .stxZp _ => .zp
  | .stxZpy _ => .zpy
  | .stxAbs _ => .abs
  | .styZp _ => .zp
  | .styZpx _ => .zpx
  | .styAbs _ => .abs
  | .andImm _ => .imm
  | .andZp _ => .zp
  | .andZpx _ => .zpx
  | .andAbs _ => .abs
  | .andAbx _ => .abx
  | .andAby _ => .aby
  | .andIzx _ => .izx
  | .andIzy _ => .izy
  | .oraImm _ => .imm
  | .oraZp _ => .zp
  | .oraZpx _ => .zpx
  | .oraAbs _ => .abs
  | .oraAbx _ => .abx
  | .oraAby _ => .aby
  | .oraIzx _ => .izx
  | .oraIzy _ => .izy
  | .eorImm _ => .imm
  | .eorZp _ => .zp
  | .eorZpx _ => .zpx
  | .eorAbs _ => .abs
  | .eorAbx _ => .abx
  | .eorAby _ => .aby
  | .eorIzx _ => .izx
  | .eorIzy _ => .izy
  | .bitZp _ => .zp
  | .bitAbs _ => .abs
  | .incZp _ => .zp
  | .incZpx _ => .zpx
  | .incAbs _ => .abs
  | .incAbx _ => .abx
  | .decZp _ => .zp
  | .decZpx _ => .zpx
  | .decAbs _ => .abs
  | .decAbx _ => .abx
  | .inx => .imp
  | .iny => .imp
  | .dex => .imp
  | .dey => .imp
  | .cmpImm _ => .imm
  | .cmpZp _ => .zp
  | .cmpZpx _ => .zpx
  | .cmpAbs _ => .abs
  | .cmpAbx _ => .abx
  | .cmpAby _ => .aby
  | .cmpIzx _ => .izx
  | .cmpIzy _ => .izy
  | .cpxImm _ => .imm
  | .cpxZp _ => .zp
  | .cpxAbs _ => .abs
  | .cpyImm _ => .imm
  | .cpyZp _ => .zp
  | .cpyAbs _ => .abs
  | .adcImm _ => .imm
  | .adcZp _ => .zp
  | .adcZpx _ => .zpx
  | .adcAbs _ => .abs
  | .adcAbx _ => .abx
  | .adcAby _ => .aby
  | .adcIzx _ => .izx
  | .adcIzy _ => .izy
  | .sbcImm _ => .imm
  | .sbcZp _ => .zp
  | .sbcZpx _ => .zpx
  | .sbcAbs _ => .abs
  | .sbcAbx _ => .abx
  | .sbcAby _ => .aby
  | .sbcIzx _ => .izx
  | .sbcIzy _ => .izy
  | .aslAcc => .acc
  | .aslZp _ => .zp
  | .aslZpx _ => .zpx
  | .aslAbs _ => .abs
  | .aslAbx _ => .abx
  | .lsrAcc => .acc
  | .lsrZp _ => .zp
  | .lsrZpx _ => .zpx
  | .lsrAbs _ => .abs
  | .lsrAbx _ => .abx
  | .rolAcc => .acc
  | .rolZp _ => .zp
  | .rolZpx _ => .zpx
  | .rolAbs _ => .abs
  | .rolAbx _ => .abx
  | .rorAcc => .acc
  | .rorZp _ => .zp
  | .rorZpx _ => .zpx
  | .rorAbs _ => .abs
  | .rorAbx _ => .abx
  | .pha => .imp
  | .php => .imp
  | .pla => .imp
  | .plp => .imp
  | .tax => .imp
  | .tay => .imp
  | .txa => .imp
  | .tya => .imp
  | .tsx => .imp
  | .txs => .imp
  | .clc => .imp
  | .sec => .imp
  | .cli => .imp
  | .sei => .imp
  | .cld => .imp
  | .sed => .imp
  | .clv => .imp
  | .nop => .imp
  | .jmpAbs _ => .abs
  | .jmpInd _ => .ind
  | .jsr _ => .abs
  | .rts => .imp
  | .brk => .imp
  | .rti => .imp
  | .bcc _ => .rel
  | .bcs _ => .rel
  | .beq _ => .rel
  | .bne _ => .rel
  | .bpl _ => .rel
  | .bmi _ => .rel
  | .bvc _ => .rel
  | .bvs _ => .rel

/-- The operand bytes of an instruction (R71). -/
def Instr.args : Instr → Args
  | .ldaImm b => .byte b
  | .ldaZp b => .byte b
  | .ldaZpx b => .byte b
  | .ldaAbs w => .word w
  | .ldaAbx w => .word w
  | .ldaAby w => .word w
  | .ldaIzx b => .byte b
  | .ldaIzy b => .byte b
  | .ldxImm b => .byte b
  | .ldxZp b => .byte b
  | .ldxZpy b => .byte b
  | .ldxAbs w => .word w
  | .ldxAby w => .word w
  | .ldyImm b => .byte b
  | .ldyZp b => .byte b
  | .ldyZpx b => .byte b
  | .ldyAbs w => .word w
  | .ldyAbx w => .word w
  | .staZp b => .byte b
  | .staZpx b => .byte b
  | .staAbs w => .word w
  | .staAbx w => .word w
  | .staAby w => .word w
  | .staIzx b => .byte b
  | .staIzy b => .byte b
  | .stxZp b => .byte b
  | .stxZpy b => .byte b
  | .stxAbs w => .word w
  | .styZp b => .byte b
  | .styZpx b => .byte b
  | .styAbs w => .word w
  | .andImm b => .byte b
  | .andZp b => .byte b
  | .andZpx b => .byte b
  | .andAbs w => .word w
  | .andAbx w => .word w
  | .andAby w => .word w
  | .andIzx b => .byte b
  | .andIzy b => .byte b
  | .oraImm b => .byte b
  | .oraZp b => .byte b
  | .oraZpx b => .byte b
  | .oraAbs w => .word w
  | .oraAbx w => .word w
  | .oraAby w => .word w
  | .oraIzx b => .byte b
  | .oraIzy b => .byte b
  | .eorImm b => .byte b
  | .eorZp b => .byte b
  | .eorZpx b => .byte b
  | .eorAbs w => .word w
  | .eorAbx w => .word w
  | .eorAby w => .word w
  | .eorIzx b => .byte b
  | .eorIzy b => .byte b
  | .bitZp b => .byte b
  | .bitAbs w => .word w
  | .incZp b => .byte b
  | .incZpx b => .byte b
  | .incAbs w => .word w
  | .incAbx w => .word w
  | .decZp b => .byte b
  | .decZpx b => .byte b
  | .decAbs w => .word w
  | .decAbx w => .word w
  | .inx => .none
  | .iny => .none
  | .dex => .none
  | .dey => .none
  | .cmpImm b => .byte b
  | .cmpZp b => .byte b
  | .cmpZpx b => .byte b
  | .cmpAbs w => .word w
  | .cmpAbx w => .word w
  | .cmpAby w => .word w
  | .cmpIzx b => .byte b
  | .cmpIzy b => .byte b
  | .cpxImm b => .byte b
  | .cpxZp b => .byte b
  | .cpxAbs w => .word w
  | .cpyImm b => .byte b
  | .cpyZp b => .byte b
  | .cpyAbs w => .word w
  | .adcImm b => .byte b
  | .adcZp b => .byte b
  | .adcZpx b => .byte b
  | .adcAbs w => .word w
  | .adcAbx w => .word w
  | .adcAby w => .word w
  | .adcIzx b => .byte b
  | .adcIzy b => .byte b
  | .sbcImm b => .byte b
  | .sbcZp b => .byte b
  | .sbcZpx b => .byte b
  | .sbcAbs w => .word w
  | .sbcAbx w => .word w
  | .sbcAby w => .word w
  | .sbcIzx b => .byte b
  | .sbcIzy b => .byte b
  | .aslAcc => .none
  | .aslZp b => .byte b
  | .aslZpx b => .byte b
  | .aslAbs w => .word w
  | .aslAbx w => .word w
  | .lsrAcc => .none
  | .lsrZp b => .byte b
  | .lsrZpx b => .byte b
  | .lsrAbs w => .word w
  | .lsrAbx w => .word w
  | .rolAcc => .none
  | .rolZp b => .byte b
  | .rolZpx b => .byte b
  | .rolAbs w => .word w
  | .rolAbx w => .word w
  | .rorAcc => .none
  | .rorZp b => .byte b
  | .rorZpx b => .byte b
  | .rorAbs w => .word w
  | .rorAbx w => .word w
  | .pha => .none
  | .php => .none
  | .pla => .none
  | .plp => .none
  | .tax => .none
  | .tay => .none
  | .txa => .none
  | .tya => .none
  | .tsx => .none
  | .txs => .none
  | .clc => .none
  | .sec => .none
  | .cli => .none
  | .sei => .none
  | .cld => .none
  | .sed => .none
  | .clv => .none
  | .nop => .none
  | .jmpAbs w => .word w
  | .jmpInd w => .word w
  | .jsr w => .word w
  | .rts => .none
  | .brk => .none
  | .rti => .none
  | .bcc b => .byte b
  | .bcs b => .byte b
  | .beq b => .byte b
  | .bne b => .byte b
  | .bpl b => .byte b
  | .bmi b => .byte b
  | .bvc b => .byte b
  | .bvs b => .byte b

/-- The length of an instruction in bytes, opcode included (R70, R72). -/
def Instr.length (i : Instr) : Nat :=
  i.mode.length

end Sys2Proof
end

