-- ==== Sys2Proof/WellFormed.lean ====
section
/-! DEFINITION. What a well-formed instruction is. A term of `Instr` names a defined opcode and holds operands of
the right width by its type, so the checks bite on the form an assembler reads (R82): a mnemonic, an addressing
mode and a number. It is well formed when the pair is in the table of R74 (91_not_in_source.md N5: no other pair
exists) and the number fits the operand bytes of the mode (R70, R71). No operand bit is reserved (R81). -/

namespace Sys2Proof

/-- The addressing modes a mnemonic has (R74). -/
def Mnemonic.modes : Mnemonic → List Mode
  | .lda | .and | .ora | .eor | .cmp | .adc | .sbc =>
    [.imm, .zp, .zpx, .abs, .abx, .aby, .izx, .izy]
  | .ldx =>
    [.imm, .zp, .zpy, .abs, .aby]
  | .ldy =>
    [.imm, .zp, .zpx, .abs, .abx]
  | .sta =>
    [.zp, .zpx, .abs, .abx, .aby, .izx, .izy]
  | .stx =>
    [.zp, .zpy, .abs]
  | .sty =>
    [.zp, .zpx, .abs]
  | .bit =>
    [.zp, .abs]
  | .inc | .dec =>
    [.zp, .zpx, .abs, .abx]
  | .inx | .iny | .dex | .dey | .pha | .php | .pla | .plp | .tax | .tay | .txa | .tya | .tsx | .txs
    | .clc | .sec | .cli | .sei | .cld | .sed | .clv | .nop | .rts | .brk | .rti =>
    [.imp]
  | .cpx | .cpy =>
    [.imm, .zp, .abs]
  | .asl | .lsr | .rol | .ror =>
    [.acc, .zp, .zpx, .abs, .abx]
  | .jmp =>
    [.abs, .ind]
  | .jsr =>
    [.abs]
  | .bcc | .bcs | .beq | .bne | .bpl | .bmi | .bvc | .bvs =>
    [.rel]

/-- An instruction as an assembler reads it (R82): `value` is 0 where the mode has no operand. -/
structure Source where
  mnemonic : Mnemonic
  mode : Mode
  value : Nat
  deriving DecidableEq, Repr

/-- The mnemonic has the mode (R74). -/
def Source.legalMode (x : Source) : Bool :=
  x.mode ∈ x.mnemonic.modes

/-- The operand fits its bytes (R70, R71). -/
def Source.fits (x : Source) : Bool :=
  x.value < 256 ^ x.mode.operandBytes

/-- Both checks. -/
def Source.wf (x : Source) : Bool :=
  x.legalMode && x.fits

/-- The assembler's form of an instruction. -/
def Instr.source (i : Instr) : Source where
  mnemonic := i.mnemonic
  mode := i.mode
  value := i.args.value

/-- An instruction is well formed when its assembler's form is and it carries as many operand bytes as its mode
has (R71). -/
def Instr.wf (i : Instr) : Bool :=
  i.source.wf && (i.args.length == i.mode.operandBytes)

end Sys2Proof
end

