-- ==== Sys2Proof/Decode.lean ====
section
/-! DEFINITION. The decoder, total on any bytes and refusing by name, and the encoder (spec/30_encoding.md R70 to
R84). Decoding is one lookup of the whole opcode byte (R71, R221) in the 16 by 16 matrix of R75; the encoder is
written from the opcode list of R74. Byte order: the low operand byte comes first in memory (R48, R73). -/

namespace Sys2Proof

/-- The word with high byte `hi` and low byte `lo`: `(hi << 8) | lo` (R45, R73). -/
def joinBytes (hi lo : Byte) : Word :=
  hi ++ lo

/-- `w & 0xFF` (R46, R172). -/
def lowByte (w : Word) : Byte :=
  w.setWidth 8

/-- `(w >> 8) & 0xFF` (R46, R172). -/
def highByte (w : Word) : Byte :=
  (w >>> 8).setWidth 8

/-- An entry of the dispatch table: an instruction waiting for the operand bytes of its format F1, F2 or F3 (R71). -/
inductive Form
  | f1 (i : Instr)
  | f2 (mk : Byte → Instr)
  | f3 (mk : Word → Instr)

/-- The instruction a table entry gives when the bytes after the opcode are `b1`, `b2`; a format that has fewer
operand bytes leaves the rest alone (R71, R73). -/
def Form.instr : Form → Byte → Byte → Instr
  | .f1 i, _, _ => i
  | .f2 mk, b1, _ => mk b1
  | .f3 mk, b1, b2 => mk (joinBytes b2 b1)

/-- Why a byte string is not decoded: the opcode byte has no entry (R80), or the string ends inside the
instruction (R84; not an error of the core, whose memory has no end). -/
inductive DecodeError
  | unknownOpcode (op : Byte)
  | incomplete
  deriving DecidableEq, Repr

/-- Opcodes 0x00 to 0x0F (R75, row 0x). -/
def opcodeRow0 : List (Option Form) :=
  [some (.f1 .brk), some (.f2 .oraIzx), none, none,
   none, some (.f2 .oraZp), some (.f2 .aslZp), none,
   some (.f1 .php), some (.f2 .oraImm), some (.f1 .aslAcc), none,
   none, some (.f3 .oraAbs), some (.f3 .aslAbs), none]

/-- Opcodes 0x10 to 0x1F (R75, row 1x). -/
def opcodeRow1 : List (Option Form) :=
  [some (.f2 .bpl), some (.f2 .oraIzy), none, none,
   none, some (.f2 .oraZpx), some (.f2 .aslZpx), none,
   some (.f1 .clc), some (.f3 .oraAby), none, none,
   none, some (.f3 .oraAbx), some (.f3 .aslAbx), none]

/-- Opcodes 0x20 to 0x2F (R75, row 2x). -/
def opcodeRow2 : List (Option Form) :=
  [some (.f3 .jsr), some (.f2 .andIzx), none, none,
   some (.f2 .bitZp), some (.f2 .andZp), some (.f2 .rolZp), none,
   some (.f1 .plp), some (.f2 .andImm), some (.f1 .rolAcc), none,
   some (.f3 .bitAbs), some (.f3 .andAbs), some (.f3 .rolAbs), none]

/-- Opcodes 0x30 to 0x3F (R75, row 3x). -/
def opcodeRow3 : List (Option Form) :=
  [some (.f2 .bmi), some (.f2 .andIzy), none, none,
   none, some (.f2 .andZpx), some (.f2 .rolZpx), none,
   some (.f1 .sec), some (.f3 .andAby), none, none,
   none, some (.f3 .andAbx), some (.f3 .rolAbx), none]

/-- Opcodes 0x40 to 0x4F (R75, row 4x). -/
def opcodeRow4 : List (Option Form) :=
  [some (.f1 .rti), some (.f2 .eorIzx), none, none,
   none, some (.f2 .eorZp), some (.f2 .lsrZp), none,
   some (.f1 .pha), some (.f2 .eorImm), some (.f1 .lsrAcc), none,
   some (.f3 .jmpAbs), some (.f3 .eorAbs), some (.f3 .lsrAbs), none]

/-- Opcodes 0x50 to 0x5F (R75, row 5x). -/
def opcodeRow5 : List (Option Form) :=
  [some (.f2 .bvc), some (.f2 .eorIzy), none, none,
   none, some (.f2 .eorZpx), some (.f2 .lsrZpx), none,
   some (.f1 .cli), some (.f3 .eorAby), none, none,
   none, some (.f3 .eorAbx), some (.f3 .lsrAbx), none]

/-- Opcodes 0x60 to 0x6F (R75, row 6x). -/
def opcodeRow6 : List (Option Form) :=
  [some (.f1 .rts), some (.f2 .adcIzx), none, none,
   none, some (.f2 .adcZp), some (.f2 .rorZp), none,
   some (.f1 .pla), some (.f2 .adcImm), some (.f1 .rorAcc), none,
   some (.f3 .jmpInd), some (.f3 .adcAbs), some (.f3 .rorAbs), none]

/-- Opcodes 0x70 to 0x7F (R75, row 7x). -/
def opcodeRow7 : List (Option Form) :=
  [some (.f2 .bvs), some (.f2 .adcIzy), none, none,
   none, some (.f2 .adcZpx), some (.f2 .rorZpx), none,
   some (.f1 .sei), some (.f3 .adcAby), none, none,
   none, some (.f3 .adcAbx), some (.f3 .rorAbx), none]

/-- Opcodes 0x80 to 0x8F (R75, row 8x). -/
def opcodeRow8 : List (Option Form) :=
  [none, some (.f2 .staIzx), none, none,
   some (.f2 .styZp), some (.f2 .staZp), some (.f2 .stxZp), none,
   some (.f1 .dey), none, some (.f1 .txa), none,
   some (.f3 .styAbs), some (.f3 .staAbs), some (.f3 .stxAbs), none]

/-- Opcodes 0x90 to 0x9F (R75, row 9x). -/
def opcodeRow9 : List (Option Form) :=
  [some (.f2 .bcc), some (.f2 .staIzy), none, none,
   some (.f2 .styZpx), some (.f2 .staZpx), some (.f2 .stxZpy), none,
   some (.f1 .tya), some (.f3 .staAby), some (.f1 .txs), none,
   none, some (.f3 .staAbx), none, none]

/-- Opcodes 0xA0 to 0xAF (R75, row Ax). -/
def opcodeRowA : List (Option Form) :=
  [some (.f2 .ldyImm), some (.f2 .ldaIzx), some (.f2 .ldxImm), none,
   some (.f2 .ldyZp), some (.f2 .ldaZp), some (.f2 .ldxZp), none,
   some (.f1 .tay), some (.f2 .ldaImm), some (.f1 .tax), none,
   some (.f3 .ldyAbs), some (.f3 .ldaAbs), some (.f3 .ldxAbs), none]

/-- Opcodes 0xB0 to 0xBF (R75, row Bx). -/
def opcodeRowB : List (Option Form) :=
  [some (.f2 .bcs), some (.f2 .ldaIzy), none, none,
   some (.f2 .ldyZpx), some (.f2 .ldaZpx), some (.f2 .ldxZpy), none,
   some (.f1 .clv), some (.f3 .ldaAby), some (.f1 .tsx), none,
   some (.f3 .ldyAbx), some (.f3 .ldaAbx), some (.f3 .ldxAby), none]

/-- Opcodes 0xC0 to 0xCF (R75, row Cx). -/
def opcodeRowC : List (Option Form) :=
  [some (.f2 .cpyImm), some (.f2 .cmpIzx), none, none,
   some (.f2 .cpyZp), some (.f2 .cmpZp), some (.f2 .decZp), none,
   some (.f1 .iny), some (.f2 .cmpImm), some (.f1 .dex), none,
   some (.f3 .cpyAbs), some (.f3 .cmpAbs), some (.f3 .decAbs), none]

/-- Opcodes 0xD0 to 0xDF (R75, row Dx). -/
def opcodeRowD : List (Option Form) :=
  [some (.f2 .bne), some (.f2 .cmpIzy), none, none,
   none, some (.f2 .cmpZpx), some (.f2 .decZpx), none,
   some (.f1 .cld), some (.f3 .cmpAby), none, none,
   none, some (.f3 .cmpAbx), some (.f3 .decAbx), none]

/-- Opcodes 0xE0 to 0xEF (R75, row Ex). -/
def opcodeRowE : List (Option Form) :=
  [some (.f2 .cpxImm), some (.f2 .sbcIzx), none, none,
   some (.f2 .cpxZp), some (.f2 .sbcZp), some (.f2 .incZp), none,
   some (.f1 .inx), some (.f2 .sbcImm), some (.f1 .nop), none,
   some (.f3 .cpxAbs), some (.f3 .sbcAbs), some (.f3 .incAbs), none]

/-- Opcodes 0xF0 to 0xFF (R75, row Fx). -/
def opcodeRowF : List (Option Form) :=
  [some (.f2 .beq), some (.f2 .sbcIzy), none, none,
   none, some (.f2 .sbcZpx), some (.f2 .incZpx), none,
   some (.f1 .sed), some (.f3 .sbcAby), none, none,
   none, some (.f3 .sbcAbx), some (.f3 .incAbx), none]

/-- The dispatch table as the matrix of R75: the row is the high nibble of the opcode byte, the column the low
nibble; `none` marks an undefined byte (R80). -/
def opcodeMatrix : List (List (Option Form)) :=
  [opcodeRow0, opcodeRow1, opcodeRow2, opcodeRow3,
   opcodeRow4, opcodeRow5, opcodeRow6, opcodeRow7,
   opcodeRow8, opcodeRow9, opcodeRowA, opcodeRowB,
   opcodeRowC, opcodeRowD, opcodeRowE, opcodeRowF]

/-- The table lookup of R221. -/
def opcodeForm (op : Byte) : Option Form :=
  match opcodeMatrix[op.toNat / 16]? with
  | some row => (row[op.toNat % 16]?).join
  | none => none

/-- Reads the operand bytes of a table entry off the front of a byte string (R71). -/
def Form.build : Form → List Byte → Except DecodeError (Instr × List Byte)
  | .f1 i, rest => .ok (i, rest)
  | .f2 mk, b :: rest => .ok (mk b, rest)
  | .f3 mk, lo :: hi :: rest => .ok (mk (joinBytes hi lo), rest)
  | .f2 _, [] => .error .incomplete
  | .f3 _, _ => .error .incomplete

/-- The decoder: the first instruction of a byte string and the bytes after it, or the reason there is none
(R72, R80, R84). -/
def decode : List Byte → Except DecodeError (Instr × List Byte)
  | [] => .error .incomplete
  | op :: rest =>
    match opcodeForm op with
    | none => .error (.unknownOpcode op)
    | some f => f.build rest

/-- The opcode byte of an instruction (R74). Only 0xA9, 0x20, 0x60 and 0x00 are the source's own; the rest are the
spec's normative table (decision D23). -/
def Instr.opcode : Instr → Byte
  | .ldaImm _ => 0xA9
  | .ldaZp _ => 0xA5
  | .ldaZpx _ => 0xB5
  | .ldaAbs _ => 0xAD
  | .ldaAbx _ => 0xBD
  | .ldaAby _ => 0xB9
  | .ldaIzx _ => 0xA1
  | .ldaIzy _ => 0xB1
  | .ldxImm _ => 0xA2
  | .ldxZp _ => 0xA6
  | .ldxZpy _ => 0xB6
  | .ldxAbs _ => 0xAE
  | .ldxAby _ => 0xBE
  | .ldyImm _ => 0xA0
  | .ldyZp _ => 0xA4
  | .ldyZpx _ => 0xB4
  | .ldyAbs _ => 0xAC
  | .ldyAbx _ => 0xBC
  | .staZp _ => 0x85
  | .staZpx _ => 0x95
  | .staAbs _ => 0x8D
  | .staAbx _ => 0x9D
  | .staAby _ => 0x99
  | .staIzx _ => 0x81
  | .staIzy _ => 0x91
  | .stxZp _ => 0x86
  | .stxZpy _ => 0x96
  | .stxAbs _ => 0x8E
  | .styZp _ => 0x84
  | .styZpx _ => 0x94
  | .styAbs _ => 0x8C
  | .andImm _ => 0x29
  | .andZp _ => 0x25
  | .andZpx _ => 0x35
  | .andAbs _ => 0x2D
  | .andAbx _ => 0x3D
  | .andAby _ => 0x39
  | .andIzx _ => 0x21
  | .andIzy _ => 0x31
  | .oraImm _ => 0x09
  | .oraZp _ => 0x05
  | .oraZpx _ => 0x15
  | .oraAbs _ => 0x0D
  | .oraAbx _ => 0x1D
  | .oraAby _ => 0x19
  | .oraIzx _ => 0x01
  | .oraIzy _ => 0x11
  | .eorImm _ => 0x49
  | .eorZp _ => 0x45
  | .eorZpx _ => 0x55
  | .eorAbs _ => 0x4D
  | .eorAbx _ => 0x5D
  | .eorAby _ => 0x59
  | .eorIzx _ => 0x41
  | .eorIzy _ => 0x51
  | .bitZp _ => 0x24
  | .bitAbs _ => 0x2C
  | .incZp _ => 0xE6
  | .incZpx _ => 0xF6
  | .incAbs _ => 0xEE
  | .incAbx _ => 0xFE
  | .decZp _ => 0xC6
  | .decZpx _ => 0xD6
  | .decAbs _ => 0xCE
  | .decAbx _ => 0xDE
  | .inx => 0xE8
  | .iny => 0xC8
  | .dex => 0xCA
  | .dey => 0x88
  | .cmpImm _ => 0xC9
  | .cmpZp _ => 0xC5
  | .cmpZpx _ => 0xD5
  | .cmpAbs _ => 0xCD
  | .cmpAbx _ => 0xDD
  | .cmpAby _ => 0xD9
  | .cmpIzx _ => 0xC1
  | .cmpIzy _ => 0xD1
  | .cpxImm _ => 0xE0
  | .cpxZp _ => 0xE4
  | .cpxAbs _ => 0xEC
  | .cpyImm _ => 0xC0
  | .cpyZp _ => 0xC4
  | .cpyAbs _ => 0xCC
  | .adcImm _ => 0x69
  | .adcZp _ => 0x65
  | .adcZpx _ => 0x75
  | .adcAbs _ => 0x6D
  | .adcAbx _ => 0x7D
  | .adcAby _ => 0x79
  | .adcIzx _ => 0x61
  | .adcIzy _ => 0x71
  | .sbcImm _ => 0xE9
  | .sbcZp _ => 0xE5
  | .sbcZpx _ => 0xF5
  | .sbcAbs _ => 0xED
  | .sbcAbx _ => 0xFD
  | .sbcAby _ => 0xF9
  | .sbcIzx _ => 0xE1
  | .sbcIzy _ => 0xF1
  | .aslAcc => 0x0A
  | .aslZp _ => 0x06
  | .aslZpx _ => 0x16
  | .aslAbs _ => 0x0E
  | .aslAbx _ => 0x1E
  | .lsrAcc => 0x4A
  | .lsrZp _ => 0x46
  | .lsrZpx _ => 0x56
  | .lsrAbs _ => 0x4E
  | .lsrAbx _ => 0x5E
  | .rolAcc => 0x2A
  | .rolZp _ => 0x26
  | .rolZpx _ => 0x36
  | .rolAbs _ => 0x2E
  | .rolAbx _ => 0x3E
  | .rorAcc => 0x6A
  | .rorZp _ => 0x66
  | .rorZpx _ => 0x76
  | .rorAbs _ => 0x6E
  | .rorAbx _ => 0x7E
  | .pha => 0x48
  | .php => 0x08
  | .pla => 0x68
  | .plp => 0x28
  | .tax => 0xAA
  | .tay => 0xA8
  | .txa => 0x8A
  | .tya => 0x98
  | .tsx => 0xBA
  | .txs => 0x9A
  | .clc => 0x18
  | .sec => 0x38
  | .cli => 0x58
  | .sei => 0x78
  | .cld => 0xD8
  | .sed => 0xF8
  | .clv => 0xB8
  | .nop => 0xEA
  | .jmpAbs _ => 0x4C
  | .jmpInd _ => 0x6C
  | .jsr _ => 0x20
  | .rts => 0x60
  | .brk => 0x00
  | .rti => 0x40
  | .bcc _ => 0x90
  | .bcs _ => 0xB0
  | .beq _ => 0xF0
  | .bne _ => 0xD0
  | .bpl _ => 0x10
  | .bmi _ => 0x30
  | .bvc _ => 0x50
  | .bvs _ => 0x70

/-- The base cycle cost of an instruction (R74, R280). -/
def Instr.baseCycles : Instr → Nat
  | .ldaImm _ => 2
  | .ldaZp _ => 3
  | .ldaZpx _ => 4
  | .ldaAbs _ => 4
  | .ldaAbx _ => 4
  | .ldaAby _ => 4
  | .ldaIzx _ => 6
  | .ldaIzy _ => 5
  | .ldxImm _ => 2
  | .ldxZp _ => 3
  | .ldxZpy _ => 4
  | .ldxAbs _ => 4
  | .ldxAby _ => 4
  | .ldyImm _ => 2
  | .ldyZp _ => 3
  | .ldyZpx _ => 4
  | .ldyAbs _ => 4
  | .ldyAbx _ => 4
  | .staZp _ => 3
  | .staZpx _ => 4
  | .staAbs _ => 4
  | .staAbx _ => 5
  | .staAby _ => 5
  | .staIzx _ => 6
  | .staIzy _ => 6
  | .stxZp _ => 3
  | .stxZpy _ => 4
  | .stxAbs _ => 4
  | .styZp _ => 3
  | .styZpx _ => 4
  | .styAbs _ => 4
  | .andImm _ => 2
  | .andZp _ => 3
  | .andZpx _ => 4
  | .andAbs _ => 4
  | .andAbx _ => 4
  | .andAby _ => 4
  | .andIzx _ => 6
  | .andIzy _ => 5
  | .oraImm _ => 2
  | .oraZp _ => 3
  | .oraZpx _ => 4
  | .oraAbs _ => 4
  | .oraAbx _ => 4
  | .oraAby _ => 4
  | .oraIzx _ => 6
  | .oraIzy _ => 5
  | .eorImm _ => 2
  | .eorZp _ => 3
  | .eorZpx _ => 4
  | .eorAbs _ => 4
  | .eorAbx _ => 4
  | .eorAby _ => 4
  | .eorIzx _ => 6
  | .eorIzy _ => 5
  | .bitZp _ => 3
  | .bitAbs _ => 4
  | .incZp _ => 5
  | .incZpx _ => 6
  | .incAbs _ => 6
  | .incAbx _ => 7
  | .decZp _ => 5
  | .decZpx _ => 6
  | .decAbs _ => 6
  | .decAbx _ => 7
  | .inx => 2
  | .iny => 2
  | .dex => 2
  | .dey => 2
  | .cmpImm _ => 2
  | .cmpZp _ => 3
  | .cmpZpx _ => 4
  | .cmpAbs _ => 4
  | .cmpAbx _ => 4
  | .cmpAby _ => 4
  | .cmpIzx _ => 6
  | .cmpIzy _ => 5
  | .cpxImm _ => 2
  | .cpxZp _ => 3
  | .cpxAbs _ => 4
  | .cpyImm _ => 2
  | .cpyZp _ => 3
  | .cpyAbs _ => 4
  | .adcImm _ => 2
  | .adcZp _ => 3
  | .adcZpx _ => 4
  | .adcAbs _ => 4
  | .adcAbx _ => 4
  | .adcAby _ => 4
  | .adcIzx _ => 6
  | .adcIzy _ => 5
  | .sbcImm _ => 2
  | .sbcZp _ => 3
  | .sbcZpx _ => 4
  | .sbcAbs _ => 4
  | .sbcAbx _ => 4
  | .sbcAby _ => 4
  | .sbcIzx _ => 6
  | .sbcIzy _ => 5
  | .aslAcc => 2
  | .aslZp _ => 5
  | .aslZpx _ => 6
  | .aslAbs _ => 6
  | .aslAbx _ => 7
  | .lsrAcc => 2
  | .lsrZp _ => 5
  | .lsrZpx _ => 6
  | .lsrAbs _ => 6
  | .lsrAbx _ => 7
  | .rolAcc => 2
  | .rolZp _ => 5
  | .rolZpx _ => 6
  | .rolAbs _ => 6
  | .rolAbx _ => 7
  | .rorAcc => 2
  | .rorZp _ => 5
  | .rorZpx _ => 6
  | .rorAbs _ => 6
  | .rorAbx _ => 7
  | .pha => 3
  | .php => 3
  | .pla => 4
  | .plp => 4
  | .tax => 2
  | .tay => 2
  | .txa => 2
  | .tya => 2
  | .tsx => 2
  | .txs => 2
  | .clc => 2
  | .sec => 2
  | .cli => 2
  | .sei => 2
  | .cld => 2
  | .sed => 2
  | .clv => 2
  | .nop => 2
  | .jmpAbs _ => 3
  | .jmpInd _ => 5
  | .jsr _ => 6
  | .rts => 6
  | .brk => 7
  | .rti => 6
  | .bcc _ => 2
  | .bcs _ => 2
  | .beq _ => 2
  | .bne _ => 2
  | .bpl _ => 2
  | .bmi _ => 2
  | .bvc _ => 2
  | .bvs _ => 2

/-- The operand bytes in memory order, low byte first (R71, R73). -/
def Args.bytes : Args → List Byte
  | .none => []
  | .byte b => [b]
  | .word w => [lowByte w, highByte w]

/-- The encoder: the bytes of an instruction in memory order (R71, R74). -/
def encode (i : Instr) : List Byte :=
  i.opcode :: i.args.bytes

/-- Byte `k` of a number whose byte 0 is the least significant: the first byte of an instruction is byte 0. -/
def byteOfNat (w k : Nat) : Byte :=
  BitVec.ofNat 8 (w / 256 ^ k)

/-- The three bytes that an instruction whose low `nbits` bits are `w` has in memory, every higher bit 0. -/
def tableWordBytes (nbits w : Nat) : List Byte :=
  let v := w % 2 ^ nbits
  [byteOfNat v 0, byteOfNat v 1, byteOfNat v 2]

/-- The instruction the decoder reads from an instruction whose bits are `w`, numbered from the least significant
bit of its first byte (the host's fixed name). -/
def decodeTableWord (nbits w : Nat) : Option Instr :=
  match decode (tableWordBytes nbits w) with
  | .ok (i, _) => some i
  | .error _ => none

end Sys2Proof
end

