-- ==== Sys2Proof/Config.lean ====
section
/-! DEFINITION. The implementation parameters of spec/00_scope.md R4 that select between behaviours the
document leaves open, as plain data, and the free values: what an intercept handler answers (R52). -/

namespace Sys2Proof

/-- `ZP_INDEX_OVERFLOW` (R4, R95, R96; decision D1): what `zp,X` and `zp,Y` do above 0xFF. -/
inductive ZpIndexOverflow
  | fault
  | wrap
  deriving DecidableEq, Repr

/-- `DEC_CARRY` (R4, R153; decision D2): how decimal ADC and SBC set C. -/
inductive DecCarry
  | decimal
  | binarySum
  deriving DecidableEq, Repr

/-- The configuration of one core, fixed at creation (R4, R25). The remaining parameters of R4 are the
launch values (`Machine.Launch`), the handler chain (`State.handlers`) and the end of a run
(`Machine.runUntil`). -/
structure Config where
  /-- `COMPAT`: the page-boundary bug of absolute-indirect addressing (R25, R100). -/
  compat : Bool
  /-- `ZP_INDEX_OVERFLOW` (R95, R96). -/
  zpIndexOverflow : ZpIndexOverflow
  /-- `ZP_PTR_WRAP`: a zero-page pointer at 0xFF takes its high byte from 0x0000 (R103). -/
  zpPtrWrap : Bool
  /-- `DEC_CARRY` (R153). -/
  decCarry : DecCarry
  /-- `PHP_OR_MASK`: bits OR-ed into the byte PHP pushes (R175). -/
  phpOrMask : Byte
  deriving DecidableEq, Repr

/-- The defaults of R4. `COMPAT` has no default there (decision D29): `true` is the value of
spec/95_test_vectors.md's conventions. DESIGN CHOICE, log entry 2. -/
def Config.default : Config where
  compat := true
  zpIndexOverflow := .fault
  zpPtrWrap := false
  decCarry := .decimal
  phpOrMask := 0x00

/-- FREE VALUE (R52; log entry 6): what the oracle handler with this identity answers to its read of an
address at the given draw: `none` when it does not intercept, else any byte. -/
opaque Config.oracleRead : Nat → Nat → Word → Option Byte

/-- FREE VALUE (R52; log entry 6): whether the oracle handler with this identity intercepts the write of a
byte at an address at the given draw. -/
opaque Config.oracleWrite : Nat → Nat → Word → Byte → Bool

end Sys2Proof
end

