-- ==== Sys2Proof/Machine/State.lean ====
section
/-! DEFINITION. The state of the core as plain data: every cell of the table of spec/10_state.md, the backing
store and the intercept chain of spec/20_memory.md, and one counter of the model's own (`draws`). The reasons a
step can stop. The state at creation (R33, R34, R271) and the one named instance of it, `State.reset`. -/

namespace Sys2Proof.Machine

/-- The backing store (R40): the cells that differ from what an unlisted cell reads as, addresses strictly rising
(`Memory.wf`). -/
abbrev Memory := List Host.Cell

/-- What an intercept handler answers (R50, R52; log entry 6).
`oracle id`: any byte or nothing, drawn from the free values of Config, one draw per invocation: a handler with a
state of its own, as R52 has it.
`table reads writes`: the same byte at every read of a listed address, interception of every write to a listed
address, nothing elsewhere: the handlers of spec/95_test_vectors.md T12. -/
inductive Behaviour
  | oracle (id : Nat)
  | table (reads : List (Word × Byte)) (writes : List Word)
  deriving DecidableEq, Repr

/-- An (owner, handler) pair of the chain (R50). The owner token has no effect on any access
(91_not_in_source.md N18). -/
structure Handler where
  owner : Nat
  behaviour : Behaviour
  deriving DecidableEq, Repr

/-- The state of the core (R10, the table of 10_state.md section 1; nothing else exists, R27). -/
structure State where
  /-- `AC`, the accumulator (R11). -/
  ac : Byte
  /-- `XR`, index register X (R11). -/
  xr : Byte
  /-- `YR`, index register Y (R11). -/
  yr : Byte
  /-- `SP`, the stack pointer: the designated cell is at 0x0100 + SP (R13). -/
  sp : Byte
  /-- `SR`, the status register: eight stored bits, none hardwired (R17). -/
  sr : Byte
  /-- `PC`, the program counter (R14). -/
  pc : Word
  /-- `cycles`, elapsed base cycles, unbounded (R23). -/
  cycles : Nat
  /-- `running`, the execution-session flag (R24). -/
  running : Bool
  /-- `M`, the backing store (R40). -/
  mem : Memory
  /-- `HANDLERS`, the intercept chain in registration order (R50, R51). -/
  handlers : List Handler
  /-- The model's own: how many handler invocations have happened, hence the index of the next free value (R52;
  log entry 6). With an empty chain it never moves. -/
  draws : Nat
  /-- The configuration, fixed at creation (R25). -/
  cfg : Config
  deriving DecidableEq, Repr

/-- Why the run aborts (R240). A fault is terminal; each carries the values R245 records and the state at the
fault (R241, R242; log entry 8), which no step continues from. -/
inductive Fault
  /-- Raised by `step`: the byte `op` fetched at `pc0` has no table entry (R80, R222, R241). The spec's own fault;
  safe. -/
  | unknownOpcode (op : Byte) (pc0 : Word) (stateAt : State)
  /-- Raised by the resolver in modes ZPX and ZPY when operand plus index is `sum` > 0xFF and
  `ZP_INDEX_OVERFLOW` is `fault` (R95, R96, R106, R242). The spec's own fault; safe. -/
  | addressRangeViolation (sum : Nat) (stateAt : State)
  /-- Raised by the host's memory-write operations of Session.lean when the value is out of range and no handler
  intercepts (R43, R46, R243); no instruction raises it (R44). The spec's own fault; safe. -/
  | invalidWrite (addr : Word) (value : Int) (stateAt : State)
  deriving DecidableEq, Repr

/-- Why an instruction has no meaning in the model. -/
inductive Refusal
  /-- Raised by `exec`'s arm of an instruction that is not modelled yet: no arm does so now. Safe. -/
  | notModelled (mnemonic : String)
  deriving DecidableEq, Repr

/-- What a meaning answers. -/
abbrev Result := Host.Outcome State Fault Refusal

/-- The launch parameters of R4 and R33: everything the document leaves open at creation. -/
structure Launch where
  initAc : Byte
  initXr : Byte
  initYr : Byte
  initSp : Byte
  initSr : Byte
  initPc : Word
  mem0 : Memory
  handlers : List Handler
  draws : Nat
  cfg : Config
  deriving DecidableEq, Repr

/-- The state at creation (R33, R34, R271): `cycles` is 0 and `running` false, everything else as launched. No
vector is read. -/
def State.create (l : Launch) : State where
  ac := l.initAc
  xr := l.initXr
  yr := l.initYr
  sp := l.initSp
  sr := l.initSr
  pc := l.initPc
  cycles := 0
  running := false
  mem := l.mem0
  handlers := l.handlers
  draws := l.draws
  cfg := l.cfg

/-- The launch values the model names where the spec gives none: the start state of spec/95_test_vectors.md's
conventions. DESIGN CHOICE, unsafe: log entries 1 (registers), 2 (COMPAT), 3 (memory), 6 (draws). The chain is
empty by R34. -/
def Launch.default : Launch where
  initAc := 0x00
  initXr := 0x00
  initYr := 0x00
  initSp := 0xFF
  initSr := 0x00
  initPc := 0x0200
  mem0 := []
  handlers := []
  draws := 0
  cfg := Config.default

/-- The machine right after creation, the core's only reset (R270). -/
def State.reset : State :=
  State.create Launch.default

end Sys2Proof.Machine
end

