-- ==== Sys2Proof/Machine/Flags.lean ====
section
/-! DEFINITION. The status register as named bits (spec/10_state.md R17 to R21) and every computation that sets
flags: compares (44_compare.md R140), the binary and the decimal adder (45_adc_sbc.md R150 to R153), shifts and
rotates (46_shift_rotate.md R160), bit test (42_logic_bit.md R124). All are functions of the old status byte. -/

namespace Sys2Proof.Machine

/-- The eight flags (R17). `U` is the unused bit; it is stored like the others. -/
inductive Flag
  | N | V | U | B | D | I | Z | C
  deriving DecidableEq, Repr

/-- The bit of `SR` that holds a flag (R17). -/
def Flag.index : Flag → Nat
  | .N => 7
  | .V => 6
  | .U => 5
  | .B => 4
  | .D => 3
  | .I => 2
  | .Z => 1
  | .C => 0

/-- The mask of a flag (R17). -/
def Flag.mask : Flag → Byte
  | .N => 0x80
  | .V => 0x40
  | .U => 0x20
  | .B => 0x10
  | .D => 0x08
  | .I => 0x04
  | .Z => 0x02
  | .C => 0x01

/-- `SR.F` read as a Boolean (R6, R19). -/
def getFlag (f : Flag) (sr : Byte) : Bool :=
  sr.getLsbD f.index

/-- `SR.F <- b`: writes one bit and leaves the other seven (R6, R18). -/
def putFlag (f : Flag) (b : Bool) (sr : Byte) : Byte :=
  if b then sr ||| f.mask else sr &&& ~~~f.mask

/-- The carry-in of the adders and rotates as a number, 0 or 1 (R150, R160). -/
def carryIn (sr : Byte) : Nat :=
  if getFlag .C sr then 1 else 0

/-- The eight named flags, most significant first (R19). -/
structure StatusFlags where
  n : Bool
  v : Bool
  u : Bool
  b : Bool
  d : Bool
  i : Bool
  z : Bool
  c : Bool
  deriving DecidableEq, Repr

/-- The status model's `decode()` (R19). -/
def decodeFlags (sr : Byte) : StatusFlags where
  n := getFlag .N sr
  v := getFlag .V sr
  u := getFlag .U sr
  b := getFlag .B sr
  d := getFlag .D sr
  i := getFlag .I sr
  z := getFlag .Z sr
  c := getFlag .C sr

/-- The status model's `encode(flags)` on a map given as a list (R20): ORs in the mask of every flag that is
present and true; a flag that is absent, or present and false (decision D25), keeps its bit. -/
def encodeFlags : List (Flag × Bool) → Byte → Byte
  | [], sr => sr
  | (f, b) :: rest, sr => encodeFlags rest (if b then sr ||| f.mask else sr)

/-- `SetZN(v)` (R21). -/
def setZN (v sr : Byte) : Byte :=
  putFlag .N (v.getLsbD 7) (putFlag .Z (v == 0) sr)

/-- The flags of a compare of register `r` with operand `m` (R140): C from the sign of the integer difference, Z
from its being 0, N from bit 7 of the difference mod 256 (90_conflicts.md C4). -/
def compareFlags (r m sr : Byte) : Byte :=
  let d : Int := (r.toNat : Int) - (m.toNat : Int)
  let n := (BitVec.ofInt 8 d).getLsbD 7
  putFlag .N n (putFlag .Z (decide (d = 0)) (putFlag .C (decide (0 ≤ d)) sr))

/-- The flags of a bit test (R124): Z from the AND, N and V from bits 7 and 6 of the operand. -/
def bitFlags (a m sr : Byte) : Byte :=
  putFlag .V (m.getLsbD 6) (putFlag .N (m.getLsbD 7) (putFlag .Z (a &&& m == 0) sr))

/-- What the adder writes: the accumulator and N, V, Z, C (R150). -/
structure AddResult where
  ac : Byte
  n : Bool
  v : Bool
  z : Bool
  c : Bool
  deriving DecidableEq, Repr

/-- The overflow test of R151 and R153: the operands agree in bit 7 and `x` differs from them there. -/
def overflow (a m x : Nat) : Bool :=
  ((a ^^^ m) &&& 0x80 == 0) && ((a ^^^ x) &&& 0x80 != 0)

/-- The binary adder on `a + m + c` (R151). -/
def binaryAdd (a m : Byte) (c : Nat) : AddResult :=
  let sum := a.toNat + m.toNat + c
  let r := BitVec.ofNat 8 sum
  { ac := r
    n := r.getLsbD 7
    v := overflow a.toNat m.toNat sum
    z := r == 0
    c := decide (sum > 0xFF) }

/-- The low nibble sum of the decimal adder with its correction (R152). -/
def decimalLow (a m : Byte) (c : Nat) : Nat :=
  let lo := (a.toNat &&& 0x0F) + (m.toNat &&& 0x0F) + c
  if lo > 9 then lo + 6 else lo

/-- The high nibble sum of the decimal adder before its final correction (R152). -/
def decimalHigh (a m : Byte) (c : Nat) : Nat :=
  (a.toNat &&& 0xF0) + (m.toNat &&& 0xF0) + (if decimalLow a m c > 0x0F then 0x10 else 0)

/-- The decimal adder (R152, R153): Z from the binary sum, N and V from the high nibble sum before its final
correction, C as `DEC_CARRY` selects (90_conflicts.md C1). -/
def decimalAdd (dc : DecCarry) (a m : Byte) (c : Nat) : AddResult :=
  let bin := a.toNat + m.toNat + c
  let lo := decimalLow a m c
  let hi := decimalHigh a m c
  let hi' := if hi > 0x90 then hi + 0x60 else hi
  { ac := BitVec.ofNat 8 ((hi' &&& 0xF0) ||| (lo &&& 0x0F))
    n := hi &&& 0x80 != 0
    v := overflow a.toNat m.toNat hi
    z := bin &&& 0xFF == 0
    c := match dc with
      | .decimal => decide (hi' > 0xFF)
      | .binarySum => decide (bin > 0xFF) }

/-- `AddCore(m)` without its writes (R150): the D flag selects the adder, C is the carry-in. -/
def addCore (dc : DecCarry) (a m sr : Byte) : AddResult :=
  if getFlag .D sr then decimalAdd dc a m (carryIn sr) else binaryAdd a m (carryIn sr)

/-- The four flag writes of `AddCore` (R150). -/
def AddResult.flags (r : AddResult) (sr : Byte) : Byte :=
  putFlag .C r.c (putFlag .Z r.z (putFlag .V r.v (putFlag .N r.n sr)))

/-- The four shifts and rotates (R160). -/
inductive ShiftOp
  | asl | lsr | rol | ror
  deriving DecidableEq, Repr

/-- The result of a shift by one of operand `v` with old carry `c` (R160). -/
def ShiftOp.result : ShiftOp → Byte → Bool → Byte
  | .asl, v, _ => v <<< 1
  | .lsr, v, _ => v >>> 1
  | .rol, v, c => (v <<< 1) ||| (if c then 0x01 else 0x00)
  | .ror, v, c => (v >>> 1) ||| (if c then 0x80 else 0x00)

/-- The bit that is shifted out, the new C (R160). -/
def ShiftOp.carryOut : ShiftOp → Byte → Bool
  | .asl, v => v.getLsbD 7
  | .rol, v => v.getLsbD 7
  | .lsr, v => v.getLsbD 0
  | .ror, v => v.getLsbD 0

/-- A shift on its operand and the status byte: the result, and C, Z, N written (R160). -/
def ShiftOp.apply (op : ShiftOp) (v sr : Byte) : Byte × Byte :=
  let r := op.result v (getFlag .C sr)
  (r, setZN r (putFlag .C (op.carryOut v) sr))

end Sys2Proof.Machine
end

