-- ==== Sys2Proof/Machine/Ops.lean ====
section
/-! DEFINITION. The named operations every meaning is built from: the backing store, the intercept chain and the
bus (spec/20_memory.md), the register updates (10_state.md), the stack engine (47_stack_transfer_flag.md R170 to
R173), and taking the one trap and returning from it (60_exceptions.md R247, R248). -/

namespace Sys2Proof.Machine

/-! ### The backing store (R40) -/

/-- What a cell that is not listed reads as. DESIGN CHOICE, log entry 3: the spec leaves memory contents at
creation to the caller's array (R33, R40). -/
def Memory.unlisted : Byte := 0x00

/-- `M[a]` (R40). -/
def Memory.read : Memory → Nat → Byte
  | [], _ => Memory.unlisted
  | (b, v) :: m, a => if a = b then v else Memory.read m a

/-- `M[a] <- v`, in canonical form: a cell that gets the unlisted value is not listed. -/
def Memory.write : Memory → Nat → Byte → Memory
  | [], a, v => if v = Memory.unlisted then [] else [(a, v)]
  | (b, w) :: m, a, v =>
    if a < b then
      if v = Memory.unlisted then (b, w) :: m else (a, v) :: (b, w) :: m
    else if a = b then
      if v = Memory.unlisted then m else (a, v) :: m
    else (b, w) :: Memory.write m a v

/-- The canonical form of the cells from address `lo` on. -/
def Memory.wfFrom : Nat → Memory → Bool
  | _, [] => true
  | lo, (a, v) :: m =>
    decide (lo ≤ a) && decide (a < 65536) && decide (v ≠ Memory.unlisted) && Memory.wfFrom (a + 1) m

/-- The canonical form: addresses below 65,536 and strictly rising, no cell with the unlisted value. -/
def Memory.wf (m : Memory) : Bool :=
  Memory.wfFrom 0 m

/-! ### Register updates (R10, R18) -/

/-- `AC <- v`. -/
def State.setAc (s : State) (v : Byte) : State := { s with ac := v }

/-- `XR <- v`. -/
def State.setXr (s : State) (v : Byte) : State := { s with xr := v }

/-- `YR <- v`. -/
def State.setYr (s : State) (v : Byte) : State := { s with yr := v }

/-- `SP <- v`. -/
def State.setSp (s : State) (v : Byte) : State := { s with sp := v }

/-- `SR <- v`, all eight bits. -/
def State.setSr (s : State) (v : Byte) : State := { s with sr := v }

/-- `PC <- w`. -/
def State.setPc (s : State) (w : Word) : State := { s with pc := w }

/-- `cycles <- cycles + n` (R224). -/
def State.addCycles (s : State) (n : Nat) : State := { s with cycles := s.cycles + n }

/-- `running <- b` (R24). -/
def State.setRunning (s : State) (b : Bool) : State := { s with running := b }

/-- Replaces the backing store. -/
def State.setMem (s : State) (m : Memory) : State := { s with mem := m }

/-- Replaces the intercept chain (R51: the host's act only). -/
def State.setHandlers (s : State) (hs : List Handler) : State := { s with handlers := hs }

/-- `n` bus accesses have happened: every handler of the chain was invoked at each (R50). -/
def State.accessed (s : State) (n : Nat) : State :=
  { s with draws := s.draws + n * s.handlers.length }

/-- `SR.F` (R6). -/
def State.flag (s : State) (f : Flag) : Bool :=
  getFlag f s.sr

/-- `SR.F <- b` (R6, R18). -/
def State.setFlag (s : State) (f : Flag) (b : Bool) : State :=
  s.setSr (putFlag f b s.sr)

/-- `SetZN(v)` on the state (R21). -/
def State.setZN (s : State) (v : Byte) : State :=
  s.setSr (Machine.setZN v s.sr)

/-! ### The intercept chain (R50 to R52) -/

/-- What a handler returns for a read of `a` at draw `d`: `none` is the document's "undefined". -/
def Handler.onRead (h : Handler) (d : Nat) (a : Word) : Option Byte :=
  match h.behaviour with
  | .oracle id => Config.oracleRead id d a
  | .table reads _ => (reads.find? (fun p => p.1 == a)).map (fun p => p.2)

/-- Whether a handler returns a defined result for a write of `v` to `a` at draw `d`. -/
def Handler.onWrite (h : Handler) (d : Nat) (a : Word) (v : Byte) : Bool :=
  match h.behaviour with
  | .oracle id => Config.oracleWrite id d a v
  | .table _ writes => writes.contains a

/-- The chain on a read: every handler is invoked in order, the last defined answer wins (R50). -/
def chainRead : List Handler → Nat → Word → Option Byte
  | [], _, _ => none
  | h :: hs, d, a =>
    match chainRead hs (d + 1) a with
    | some v => some v
    | none => h.onRead d a

/-- The chain on a write: intercepted when at least one handler returns a defined result (R50). -/
def chainWrite : List Handler → Nat → Word → Byte → Bool
  | [], _, _, _ => false
  | h :: hs, d, a, v => h.onWrite d a v || chainWrite hs (d + 1) a v

/-! ### The bus (R42 to R47). An address is a `Word`, so it is reduced mod 65,536 already. -/

/-- The byte a read of `a` returns when it is the state's next access (R42). -/
def State.peek (s : State) (a : Word) : Byte :=
  match chainRead s.handlers s.draws a with
  | some v => v
  | none => s.mem.read a.toNat

/-- Whether a write of `v` to `a` is intercepted when it is the state's next access (R43). -/
def State.intercepts (s : State) (a : Word) (v : Byte) : Bool :=
  chainWrite s.handlers s.draws a v

/-- `MemRead(a, 1)` (R42). -/
def State.busRead (s : State) (a : Word) : Byte × State :=
  (s.peek a, s.accessed 1)

/-- `MemWrite(a, 1, v)` for a byte `v` (R43): the range check of R43 holds of every byte (R44). -/
def State.busWrite (s : State) (a : Word) (v : Byte) : State :=
  if s.intercepts a v then s.accessed 1
  else (s.accessed 1).setMem (s.mem.write a.toNat v)

/-- `MemRead(a, 2)`: two accesses, low byte first, the second address wrapping (R45, R47). -/
def State.busReadWord (s : State) (a : Word) : Word × State :=
  let (lo, s1) := s.busRead a
  let (hi, s2) := s1.busRead (a + 1)
  (joinBytes hi lo, s2)

/-- `MemWrite(a, 2, w)`: two accesses, low byte first (R46). No instruction uses it. -/
def State.busWriteWord (s : State) (a w : Word) : State :=
  (s.busWrite a (lowByte w)).busWrite (a + 1) (highByte w)

/-! ### The stack engine (R13, R170 to R173) -/

/-- `0x0100 + SP` (R13). -/
def stackAddr (sp : Byte) : Word :=
  0x0100 + sp.setWidth 16

/-- `Push(v)`: store, then decrement (R170). -/
def State.push (s : State) (v : Byte) : State :=
  let s1 := s.busWrite (stackAddr s.sp) v
  s1.setSp (s1.sp - 1)

/-- `Pop()`: increment, then read (R171). -/
def State.pop (s : State) : Byte × State :=
  let s1 := s.setSp (s.sp + 1)
  s1.busRead (stackAddr s1.sp)

/-- `PushWord(w)`: high byte first (R172). -/
def State.pushWord (s : State) (w : Word) : State :=
  (s.push (highByte w)).push (lowByte w)

/-- `PopWord()`: low byte first (R173). -/
def State.popWord (s : State) : Word × State :=
  let (lo, s1) := s.pop
  let (hi, s2) := s1.pop
  (joinBytes hi lo, s2)

/-! ### The one trap (R204, R205, R247, R248) -/

/-- The fixed vector (R41, R247). -/
def brkVector : Word := 0xFFFE

/-- Trap entry (R247): I and B are set in `SR`, the return address and then `SR` are pushed, `PC` comes from the
vector. On entry `PC` is the BRK's address plus 1, so the pushed word is its address plus 2 (R204). -/
def State.takeTrap (s : State) : State :=
  let s1 := (s.setFlag .I true).setFlag .B true
  let s2 := s1.pushWord (s1.pc + 1)
  let s3 := s2.push s2.sr
  let (target, s4) := s3.busReadWord brkVector
  s4.setPc target

/-- Trap return (R248): `SR` whole, then `PC`, are popped; Z and N are not reapplied and nothing is added. -/
def State.returnFromTrap (s : State) : State :=
  let (sr, s1) := s.pop
  let (target, s2) := (s1.setSr sr).popWord
  s2.setPc target

end Sys2Proof.Machine
end

