-- ==== Sys2Proof/Machine/Operands.lean ====
section
/-! DEFINITION. The addressing-mode resolver (spec/40_addressing.md R90 to R106) and the ways a meaning uses it.
When a meaning runs, the step has fetched the operand bytes through the bus and `PC` is the address of the next
instruction (10_state.md R15; JSR and BRK apart). -/

namespace Sys2Proof.Machine

/-- The operand forms that give an address (R93 to R104), with their operand bytes. -/
inductive Operand
  | imm (b : Byte)
  | zp (b : Byte)
  | zpx (b : Byte)
  | zpy (b : Byte)
  | abs (w : Word)
  | abx (w : Word)
  | aby (w : Word)
  | ind (w : Word)
  | izx (b : Byte)
  | izy (b : Byte)
  | rel (b : Byte)
  deriving DecidableEq, Repr

/-- `zext_16` (R6). -/
def zext (b : Byte) : Word :=
  b.setWidth 16

/-- `sext_8`, reduced to a word (R6, R104). -/
def sext (b : Byte) : Word :=
  b.signExtend 16

/-- `ZPX` and `ZPY` (R95, R96): base plus index, and above 0xFF the fault or the wrap of `ZP_INDEX_OVERFLOW`. -/
def zpIndexed (b index : Byte) (s : State) : Except Fault (Word × State) :=
  let sum := b.toNat + index.toNat
  if sum > 0xFF then
    match s.cfg.zpIndexOverflow with
    | .fault => .error (.addressRangeViolation sum s)
    | .wrap => .ok (BitVec.ofNat 16 (sum % 256), s)
  else .ok (BitVec.ofNat 16 sum, s)

/-- `ZpWord(p)` (R103): the high byte of a pointer at 0xFF is at 0x0000 or 0x0100 as `ZP_PTR_WRAP` says. -/
def zpWord (p : Byte) (s : State) : Word × State :=
  let (lo, s1) := s.busRead (zext p)
  let (hi, s2) := s1.busRead (if s.cfg.zpPtrWrap then zext (p + 1) else zext p + 1)
  (joinBytes hi lo, s2)

/-- The pointer read of `IND` (R100): with `COMPAT` a pointer that ends a page takes its high byte from the start
of the same page. -/
def indirectWord (p : Word) (s : State) : Word × State :=
  let (lo, s1) := s.busRead p
  let (hi, s2) := s1.busRead (if lowByte p = 0xFF ∧ s.cfg.compat = true then p &&& 0xFF00 else p + 1)
  (joinBytes hi lo, s2)

/-- `EA(mode)` after the operand bytes have been consumed (R90, R93 to R104). -/
def Operand.ea : Operand → State → Except Fault (Word × State)
  | .imm _, s => .ok (s.pc - 1, s)
  | .zp b, s => .ok (zext b, s)
  | .zpx b, s => zpIndexed b s.xr s
  | .zpy b, s => zpIndexed b s.yr s
  | .abs w, s => .ok (w, s)
  | .abx w, s => .ok (w + zext s.xr, s)
  | .aby w, s => .ok (w + zext s.yr, s)
  | .ind p, s => .ok (indirectWord p s)
  | .izx b, s => .ok (zpWord (b + s.xr) s)
  | .izy b, s =>
    let (base, s1) := zpWord b s
    .ok (base + zext s.yr, s1)
  | .rel b, s => .ok (s.pc + sext b, s)

/-- The byte an instruction reads: `MemRead(EA(mode), 1)`. The immediate byte is the operand byte the step has
read through the bus already, the one access of that address (R54, R93). -/
def Operand.read : Operand → State → Except Fault (Byte × State)
  | .imm b, s => .ok (b, s)
  | o, s =>
    match o.ea s with
    | .error f => .error f
    | .ok (a, s1) => .ok (s1.busRead a)

/-- Resolve, read the operand, go on with the byte (loads, logic, arithmetic, compares). -/
def readThen (o : Operand) (s : State) (k : Byte → State → State) : Result :=
  match o.read s with
  | .error f => .fault f
  | .ok (v, s1) => .next (k v s1)

/-- Resolve, go on with the address (stores, jumps). -/
def addressThen (o : Operand) (s : State) (k : Word → State → State) : Result :=
  match o.ea s with
  | .error f => .fault f
  | .ok (a, s1) => .next (k a s1)

/-- Resolve, read once, write the result once at the same address, write the status byte (R54, R130, R160). `f`
gives the result and the new status byte from the operand and the old one. -/
def modify (o : Operand) (s : State) (f : Byte → Byte → Byte × Byte) : Result :=
  addressThen o s fun a s1 =>
    let (v, s2) := s1.busRead a
    let (r, sr) := f v s2.sr
    (s2.busWrite a r).setSr sr

end Sys2Proof.Machine
end

