-- ==== Sys2Proof/Machine/AddSub.lean ====
section
/-! DEFINITION. Add and subtract with carry (spec/45_adc_sbc.md R150 to R155): ADC SBC, binary and decimal. -/

namespace Sys2Proof.Machine

/-- `AddCore(m)` with its writes (R150): `AC` and N, V, Z, C. -/
def State.addCore (s : State) (m : Byte) : State :=
  let r := Machine.addCore s.cfg.decCarry s.ac m s.sr
  (s.setAc r.ac).setSr (r.flags s.sr)

/-- ADC (R154). -/
def addMemory (o : Operand) (s : State) : Result :=
  readThen o s fun m t => t.addCore m

/-- SBC (R155): the same adder on the operand with its bits inverted, in binary and in decimal mode. -/
def subMemory (o : Operand) (s : State) : Result :=
  readThen o s fun m t => t.addCore (m ^^^ 0xFF)

/-- ADC IMM, opcode 0x69 (R154). -/
def execAdcImm (b : Byte) (s : State) : Result :=
  addMemory (.imm b) s

/-- ADC ZP, opcode 0x65 (R154). -/
def execAdcZp (b : Byte) (s : State) : Result :=
  addMemory (.zp b) s

/-- ADC ZPX, opcode 0x75 (R154). -/
def execAdcZpx (b : Byte) (s : State) : Result :=
  addMemory (.zpx b) s

/-- ADC ABS, opcode 0x6D (R154). -/
def execAdcAbs (w : Word) (s : State) : Result :=
  addMemory (.abs w) s

/-- ADC ABX, opcode 0x7D (R154). -/
def execAdcAbx (w : Word) (s : State) : Result :=
  addMemory (.abx w) s

/-- ADC ABY, opcode 0x79 (R154). -/
def execAdcAby (w : Word) (s : State) : Result :=
  addMemory (.aby w) s

/-- ADC IZX, opcode 0x61 (R154). -/
def execAdcIzx (b : Byte) (s : State) : Result :=
  addMemory (.izx b) s

/-- ADC IZY, opcode 0x71 (R154). -/
def execAdcIzy (b : Byte) (s : State) : Result :=
  addMemory (.izy b) s

/-- SBC IMM, opcode 0xE9 (R155). -/
def execSbcImm (b : Byte) (s : State) : Result :=
  subMemory (.imm b) s

/-- SBC ZP, opcode 0xE5 (R155). -/
def execSbcZp (b : Byte) (s : State) : Result :=
  subMemory (.zp b) s

/-- SBC ZPX, opcode 0xF5 (R155). -/
def execSbcZpx (b : Byte) (s : State) : Result :=
  subMemory (.zpx b) s

/-- SBC ABS, opcode 0xED (R155). -/
def execSbcAbs (w : Word) (s : State) : Result :=
  subMemory (.abs w) s

/-- SBC ABX, opcode 0xFD (R155). -/
def execSbcAbx (w : Word) (s : State) : Result :=
  subMemory (.abx w) s

/-- SBC ABY, opcode 0xF9 (R155). -/
def execSbcAby (w : Word) (s : State) : Result :=
  subMemory (.aby w) s

/-- SBC IZX, opcode 0xE1 (R155). -/
def execSbcIzx (b : Byte) (s : State) : Result :=
  subMemory (.izx b) s

/-- SBC IZY, opcode 0xF1 (R155). -/
def execSbcIzy (b : Byte) (s : State) : Result :=
  subMemory (.izy b) s

end Sys2Proof.Machine
end

