-- ==== Sys2Proof/Machine/Compare.lean ====
section
/-! DEFINITION. Compares (spec/44_compare.md R140 to R143): CMP CPX CPY. -/

namespace Sys2Proof.Machine

/-- A compare of register value `r` with the operand (R140): flags only, D and the old C are not read. -/
def compareWith (r : Byte) (o : Operand) (s : State) : Result :=
  readThen o s fun m t => t.setSr (compareFlags r m t.sr)

/-- CMP IMM, opcode 0xC9 (R141). -/
def execCmpImm (b : Byte) (s : State) : Result :=
  compareWith s.ac (.imm b) s

/-- CMP ZP, opcode 0xC5 (R141). -/
def execCmpZp (b : Byte) (s : State) : Result :=
  compareWith s.ac (.zp b) s

/-- CMP ZPX, opcode 0xD5 (R141). -/
def execCmpZpx (b : Byte) (s : State) : Result :=
  compareWith s.ac (.zpx b) s

/-- CMP ABS, opcode 0xCD (R141). -/
def execCmpAbs (w : Word) (s : State) : Result :=
  compareWith s.ac (.abs w) s

/-- CMP ABX, opcode 0xDD (R141). -/
def execCmpAbx (w : Word) (s : State) : Result :=
  compareWith s.ac (.abx w) s

/-- CMP ABY, opcode 0xD9 (R141). -/
def execCmpAby (w : Word) (s : State) : Result :=
  compareWith s.ac (.aby w) s

/-- CMP IZX, opcode 0xC1 (R141). -/
def execCmpIzx (b : Byte) (s : State) : Result :=
  compareWith s.ac (.izx b) s

/-- CMP IZY, opcode 0xD1 (R141). -/
def execCmpIzy (b : Byte) (s : State) : Result :=
  compareWith s.ac (.izy b) s

/-- CPX IMM, opcode 0xE0 (R142). -/
def execCpxImm (b : Byte) (s : State) : Result :=
  compareWith s.xr (.imm b) s

/-- CPX ZP, opcode 0xE4 (R142). -/
def execCpxZp (b : Byte) (s : State) : Result :=
  compareWith s.xr (.zp b) s

/-- CPX ABS, opcode 0xEC (R142). -/
def execCpxAbs (w : Word) (s : State) : Result :=
  compareWith s.xr (.abs w) s

/-- CPY IMM, opcode 0xC0 (R143). -/
def execCpyImm (b : Byte) (s : State) : Result :=
  compareWith s.yr (.imm b) s

/-- CPY ZP, opcode 0xC4 (R143). -/
def execCpyZp (b : Byte) (s : State) : Result :=
  compareWith s.yr (.zp b) s

/-- CPY ABS, opcode 0xCC (R143). -/
def execCpyAbs (w : Word) (s : State) : Result :=
  compareWith s.yr (.abs w) s

end Sys2Proof.Machine
end

