-- ==== Sys2Proof/Machine/Control.lean ====
section
/-! DEFINITION. Control transfer (spec/48_control_flow.md R200 to R214): JMP JSR RTS BRK RTI and the eight branches. On
entry `PC` is the address of the next instruction; for JSR it is the address of the first operand byte (R202,
90_conflicts.md C8). -/

namespace Sys2Proof.Machine

/-- JMP (R201): `PC` takes the effective address. -/
def jump (o : Operand) (s : State) : Result :=
  addressThen o s fun a t => t.setPc a

/-- JMP ABS, opcode 0x4C (R201). -/
def execJmpAbs (w : Word) (s : State) : Result :=
  jump (.abs w) s

/-- JMP IND, opcode 0x6C (R201). -/
def execJmpInd (w : Word) (s : State) : Result :=
  jump (.ind w) s

/-- JSR (R202): pushes the address of its own last byte, then reads the target at `PC` through the bus. -/
def callSubroutine (s : State) : Result :=
  let s1 := s.pushWord (s.pc + 1)
  let (target, s2) := s1.busReadWord s1.pc
  .next (s2.setPc target)

/-- JSR ABS, opcode 0x20 (R202). The operand of the instruction term is not an argument: JSR reads its two operand
bytes itself, after its pushes (decision D7; log entry 5). -/
def execJsr (s : State) : Result :=
  callSubroutine s

/-- RTS IMP, opcode 0x60 (R203). -/
def execRts (s : State) : Result :=
  let (w, t) := s.popWord
  .next (t.setPc (w + 1))

/-- BRK IMP, opcode 0x00 (R204). -/
def execBrk (s : State) : Result :=
  .next s.takeTrap

/-- RTI IMP, opcode 0x40 (R205). -/
def execRti (s : State) : Result :=
  .next s.returnFromTrap

/-- A conditional branch (R206): the operand byte is consumed either way, `PC` takes the target of R104 on a true
test only. -/
def branchIf (test : Bool) (b : Byte) (s : State) : Result :=
  addressThen (.rel b) s fun target t => if test then t.setPc target else t

/-- BCC REL, opcode 0x90 (R207). -/
def execBcc (b : Byte) (s : State) : Result :=
  branchIf (s.flag .C == false) b s

/-- BCS REL, opcode 0xB0 (R208). -/
def execBcs (b : Byte) (s : State) : Result :=
  branchIf (s.flag .C == true) b s

/-- BEQ REL, opcode 0xF0 (R209). -/
def execBeq (b : Byte) (s : State) : Result :=
  branchIf (s.flag .Z == true) b s

/-- BNE REL, opcode 0xD0 (R210). -/
def execBne (b : Byte) (s : State) : Result :=
  branchIf (s.flag .Z == false) b s

/-- BPL REL, opcode 0x10 (R211). -/
def execBpl (b : Byte) (s : State) : Result :=
  branchIf (s.flag .N == false) b s

/-- BMI REL, opcode 0x30 (R212). -/
def execBmi (b : Byte) (s : State) : Result :=
  branchIf (s.flag .N == true) b s

/-- BVC REL, opcode 0x50 (R213). -/
def execBvc (b : Byte) (s : State) : Result :=
  branchIf (s.flag .V == false) b s

/-- BVS REL, opcode 0x70 (R214). -/
def execBvs (b : Byte) (s : State) : Result :=
  branchIf (s.flag .V == true) b s

end Sys2Proof.Machine
end

