-- ==== Sys2Proof/Machine/FlagOps.lean ====
section
/-! DEFINITION. Flag instructions (spec/47_stack_transfer_flag.md R184 to R190): CLC SEC CLI SEI CLD SED CLV. Each
writes one bit of `SR`. -/

namespace Sys2Proof.Machine

/-- CLC IMP, opcode 0x18 (R184). -/
def execClc (s : State) : Result :=
  .next (s.setFlag .C false)

/-- SEC IMP, opcode 0x38 (R185). -/
def execSec (s : State) : Result :=
  .next (s.setFlag .C true)

/-- CLI IMP, opcode 0x58 (R186). -/
def execCli (s : State) : Result :=
  .next (s.setFlag .I false)

/-- SEI IMP, opcode 0x78 (R187). -/
def execSei (s : State) : Result :=
  .next (s.setFlag .I true)

/-- CLD IMP, opcode 0xD8 (R188). -/
def execCld (s : State) : Result :=
  .next (s.setFlag .D false)

/-- SED IMP, opcode 0xF8 (R189). -/
def execSed (s : State) : Result :=
  .next (s.setFlag .D true)

/-- CLV IMP, opcode 0xB8 (R190). -/
def execClv (s : State) : Result :=
  .next (s.setFlag .V false)

end Sys2Proof.Machine
end

