-- ==== Sys2Proof/Machine/LoadStore.lean ====
section
/-! DEFINITION. Loads and stores (spec/41_load_store.md R110 to R116): LDA LDX LDY STA STX STY. One shared
operation per mnemonic, one meaning per opcode. -/

namespace Sys2Proof.Machine

/-- LDA (R111): `AC` takes the byte, Z and N from it. -/
def loadAc (o : Operand) (s : State) : Result :=
  readThen o s fun v t => (t.setAc v).setZN v

/-- LDA IMM, opcode 0xA9 (R111). -/
def execLdaImm (b : Byte) (s : State) : Result :=
  loadAc (.imm b) s

/-- LDA ZP, opcode 0xA5 (R111). -/
def execLdaZp (b : Byte) (s : State) : Result :=
  loadAc (.zp b) s

/-- LDA ZPX, opcode 0xB5 (R111). -/
def execLdaZpx (b : Byte) (s : State) : Result :=
  loadAc (.zpx b) s

/-- LDA ABS, opcode 0xAD (R111). -/
def execLdaAbs (w : Word) (s : State) : Result :=
  loadAc (.abs w) s

/-- LDA ABX, opcode 0xBD (R111). -/
def execLdaAbx (w : Word) (s : State) : Result :=
  loadAc (.abx w) s

/-- LDA ABY, opcode 0xB9 (R111). -/
def execLdaAby (w : Word) (s : State) : Result :=
  loadAc (.aby w) s

/-- LDA IZX, opcode 0xA1 (R111). -/
def execLdaIzx (b : Byte) (s : State) : Result :=
  loadAc (.izx b) s

/-- LDA IZY, opcode 0xB1 (R111). -/
def execLdaIzy (b : Byte) (s : State) : Result :=
  loadAc (.izy b) s

/-- LDX (R112). -/
def loadXr (o : Operand) (s : State) : Result :=
  readThen o s fun v t => (t.setXr v).setZN v

/-- LDX IMM, opcode 0xA2 (R112). -/
def execLdxImm (b : Byte) (s : State) : Result :=
  loadXr (.imm b) s

/-- LDX ZP, opcode 0xA6 (R112). -/
def execLdxZp (b : Byte) (s : State) : Result :=
  loadXr (.zp b) s

/-- LDX ZPY, opcode 0xB6 (R112). -/
def execLdxZpy (b : Byte) (s : State) : Result :=
  loadXr (.zpy b) s

/-- LDX ABS, opcode 0xAE (R112). -/
def execLdxAbs (w : Word) (s : State) : Result :=
  loadXr (.abs w) s

/-- LDX ABY, opcode 0xBE (R112). -/
def execLdxAby (w : Word) (s : State) : Result :=
  loadXr (.aby w) s

/-- LDY (R113). -/
def loadYr (o : Operand) (s : State) : Result :=
  readThen o s fun v t => (t.setYr v).setZN v

/-- LDY IMM, opcode 0xA0 (R113). -/
def execLdyImm (b : Byte) (s : State) : Result :=
  loadYr (.imm b) s

/-- LDY ZP, opcode 0xA4 (R113). -/
def execLdyZp (b : Byte) (s : State) : Result :=
  loadYr (.zp b) s

/-- LDY ZPX, opcode 0xB4 (R113). -/
def execLdyZpx (b : Byte) (s : State) : Result :=
  loadYr (.zpx b) s

/-- LDY ABS, opcode 0xAC (R113). -/
def execLdyAbs (w : Word) (s : State) : Result :=
  loadYr (.abs w) s

/-- LDY ABX, opcode 0xBC (R113). -/
def execLdyAbx (w : Word) (s : State) : Result :=
  loadYr (.abx w) s

/-- STA, STX, STY (R114 to R116): one write of the register at the effective address, no flag. -/
def storeByte (o : Operand) (v : Byte) (s : State) : Result :=
  addressThen o s fun a t => t.busWrite a v

/-- STA ZP, opcode 0x85 (R114). -/
def execStaZp (b : Byte) (s : State) : Result :=
  storeByte (.zp b) s.ac s

/-- STA ZPX, opcode 0x95 (R114). -/
def execStaZpx (b : Byte) (s : State) : Result :=
  storeByte (.zpx b) s.ac s

/-- STA ABS, opcode 0x8D (R114). -/
def execStaAbs (w : Word) (s : State) : Result :=
  storeByte (.abs w) s.ac s

/-- STA ABX, opcode 0x9D (R114). -/
def execStaAbx (w : Word) (s : State) : Result :=
  storeByte (.abx w) s.ac s

/-- STA ABY, opcode 0x99 (R114). -/
def execStaAby (w : Word) (s : State) : Result :=
  storeByte (.aby w) s.ac s

/-- STA IZX, opcode 0x81 (R114). -/
def execStaIzx (b : Byte) (s : State) : Result :=
  storeByte (.izx b) s.ac s

/-- STA IZY, opcode 0x91 (R114). -/
def execStaIzy (b : Byte) (s : State) : Result :=
  storeByte (.izy b) s.ac s

/-- STX ZP, opcode 0x86 (R115). -/
def execStxZp (b : Byte) (s : State) : Result :=
  storeByte (.zp b) s.xr s

/-- STX ZPY, opcode 0x96 (R115). -/
def execStxZpy (b : Byte) (s : State) : Result :=
  storeByte (.zpy b) s.xr s

/-- STX ABS, opcode 0x8E (R115). -/
def execStxAbs (w : Word) (s : State) : Result :=
  storeByte (.abs w) s.xr s

/-- STY ZP, opcode 0x84 (R116). -/
def execStyZp (b : Byte) (s : State) : Result :=
  storeByte (.zp b) s.yr s

/-- STY ZPX, opcode 0x94 (R116). -/
def execStyZpx (b : Byte) (s : State) : Result :=
  storeByte (.zpx b) s.yr s

/-- STY ABS, opcode 0x8C (R116). -/
def execStyAbs (w : Word) (s : State) : Result :=
  storeByte (.abs w) s.yr s

end Sys2Proof.Machine
end

