-- ==== Sys2Proof/Machine/Logic.lean ====
section
/-! DEFINITION. Logic and bit test (spec/42_logic_bit.md R120 to R124): AND ORA EOR BIT. -/

namespace Sys2Proof.Machine

/-- AND, ORA, EOR (R120): `AC` takes `f AC m`, Z and N from it. -/
def combineAc (f : Byte → Byte → Byte) (o : Operand) (s : State) : Result :=
  readThen o s fun m t => (t.setAc (f t.ac m)).setZN (f t.ac m)

/-- The operator of AND (R121). -/
def andOp (a m : Byte) : Byte := a &&& m

/-- The operator of ORA (R122). -/
def oraOp (a m : Byte) : Byte := a ||| m

/-- The operator of EOR (R123). -/
def eorOp (a m : Byte) : Byte := a ^^^ m

/-- AND IMM, opcode 0x29 (R121). -/
def execAndImm (b : Byte) (s : State) : Result :=
  combineAc andOp (.imm b) s

/-- AND ZP, opcode 0x25 (R121). -/
def execAndZp (b : Byte) (s : State) : Result :=
  combineAc andOp (.zp b) s

/-- AND ZPX, opcode 0x35 (R121). -/
def execAndZpx (b : Byte) (s : State) : Result :=
  combineAc andOp (.zpx b) s

/-- AND ABS, opcode 0x2D (R121). -/
def execAndAbs (w : Word) (s : State) : Result :=
  combineAc andOp (.abs w) s

/-- AND ABX, opcode 0x3D (R121). -/
def execAndAbx (w : Word) (s : State) : Result :=
  combineAc andOp (.abx w) s

/-- AND ABY, opcode 0x39 (R121). -/
def execAndAby (w : Word) (s : State) : Result :=
  combineAc andOp (.aby w) s

/-- AND IZX, opcode 0x21 (R121). -/
def execAndIzx (b : Byte) (s : State) : Result :=
  combineAc andOp (.izx b) s

/-- AND IZY, opcode 0x31 (R121). -/
def execAndIzy (b : Byte) (s : State) : Result :=
  combineAc andOp (.izy b) s

/-- ORA IMM, opcode 0x09 (R122). -/
def execOraImm (b : Byte) (s : State) : Result :=
  combineAc oraOp (.imm b) s

/-- ORA ZP, opcode 0x05 (R122). -/
def execOraZp (b : Byte) (s : State) : Result :=
  combineAc oraOp (.zp b) s

/-- ORA ZPX, opcode 0x15 (R122). -/
def execOraZpx (b : Byte) (s : State) : Result :=
  combineAc oraOp (.zpx b) s

/-- ORA ABS, opcode 0x0D (R122). -/
def execOraAbs (w : Word) (s : State) : Result :=
  combineAc oraOp (.abs w) s

/-- ORA ABX, opcode 0x1D (R122). -/
def execOraAbx (w : Word) (s : State) : Result :=
  combineAc oraOp (.abx w) s

/-- ORA ABY, opcode 0x19 (R122). -/
def execOraAby (w : Word) (s : State) : Result :=
  combineAc oraOp (.aby w) s

/-- ORA IZX, opcode 0x01 (R122). -/
def execOraIzx (b : Byte) (s : State) : Result :=
  combineAc oraOp (.izx b) s

/-- ORA IZY, opcode 0x11 (R122). -/
def execOraIzy (b : Byte) (s : State) : Result :=
  combineAc oraOp (.izy b) s

/-- EOR IMM, opcode 0x49 (R123). -/
def execEorImm (b : Byte) (s : State) : Result :=
  combineAc eorOp (.imm b) s

/-- EOR ZP, opcode 0x45 (R123). -/
def execEorZp (b : Byte) (s : State) : Result :=
  combineAc eorOp (.zp b) s

/-- EOR ZPX, opcode 0x55 (R123). -/
def execEorZpx (b : Byte) (s : State) : Result :=
  combineAc eorOp (.zpx b) s

/-- EOR ABS, opcode 0x4D (R123). -/
def execEorAbs (w : Word) (s : State) : Result :=
  combineAc eorOp (.abs w) s

/-- EOR ABX, opcode 0x5D (R123). -/
def execEorAbx (w : Word) (s : State) : Result :=
  combineAc eorOp (.abx w) s

/-- EOR ABY, opcode 0x59 (R123). -/
def execEorAby (w : Word) (s : State) : Result :=
  combineAc eorOp (.aby w) s

/-- EOR IZX, opcode 0x41 (R123). -/
def execEorIzx (b : Byte) (s : State) : Result :=
  combineAc eorOp (.izx b) s

/-- EOR IZY, opcode 0x51 (R123). -/
def execEorIzy (b : Byte) (s : State) : Result :=
  combineAc eorOp (.izy b) s

/-- BIT (R124): flags only. -/
def bitTest (o : Operand) (s : State) : Result :=
  readThen o s fun m t => t.setSr (bitFlags t.ac m t.sr)

/-- BIT ZP, opcode 0x24 (R124). -/
def execBitZp (b : Byte) (s : State) : Result :=
  bitTest (.zp b) s

/-- BIT ABS, opcode 0x2C (R124). -/
def execBitAbs (w : Word) (s : State) : Result :=
  bitTest (.abs w) s

end Sys2Proof.Machine
end

