-- ==== Sys2Proof/Machine/Shift.lean ====
section
/-! DEFINITION. Shifts and rotates (spec/46_shift_rotate.md R160 to R164): ASL LSR ROL ROR. The memory forms
read and write the effective address once each. -/

namespace Sys2Proof.Machine

/-- The accumulator form (R92, R160): no bus access. -/
def shiftAc (op : ShiftOp) (s : State) : Result :=
  let (r, sr) := op.apply s.ac s.sr
  .next ((s.setAc r).setSr sr)

/-- ASL ACC, opcode 0x0A (R161). -/
def execAslAcc (s : State) : Result :=
  shiftAc .asl s

/-- ASL ZP, opcode 0x06 (R161). -/
def execAslZp (b : Byte) (s : State) : Result :=
  modify (.zp b) s (ShiftOp.apply .asl)

/-- ASL ZPX, opcode 0x16 (R161). -/
def execAslZpx (b : Byte) (s : State) : Result :=
  modify (.zpx b) s (ShiftOp.apply .asl)

/-- ASL ABS, opcode 0x0E (R161). -/
def execAslAbs (w : Word) (s : State) : Result :=
  modify (.abs w) s (ShiftOp.apply .asl)

/-- ASL ABX, opcode 0x1E (R161). -/
def execAslAbx (w : Word) (s : State) : Result :=
  modify (.abx w) s (ShiftOp.apply .asl)

/-- LSR ACC, opcode 0x4A (R162). -/
def execLsrAcc (s : State) : Result :=
  shiftAc .lsr s

/-- LSR ZP, opcode 0x46 (R162). -/
def execLsrZp (b : Byte) (s : State) : Result :=
  modify (.zp b) s (ShiftOp.apply .lsr)

/-- LSR ZPX, opcode 0x56 (R162). -/
def execLsrZpx (b : Byte) (s : State) : Result :=
  modify (.zpx b) s (ShiftOp.apply .lsr)

/-- LSR ABS, opcode 0x4E (R162). -/
def execLsrAbs (w : Word) (s : State) : Result :=
  modify (.abs w) s (ShiftOp.apply .lsr)

/-- LSR ABX, opcode 0x5E (R162). -/
def execLsrAbx (w : Word) (s : State) : Result :=
  modify (.abx w) s (ShiftOp.apply .lsr)

/-- ROL ACC, opcode 0x2A (R163). -/
def execRolAcc (s : State) : Result :=
  shiftAc .rol s

/-- ROL ZP, opcode 0x26 (R163). -/
def execRolZp (b : Byte) (s : State) : Result :=
  modify (.zp b) s (ShiftOp.apply .rol)

/-- ROL ZPX, opcode 0x36 (R163). -/
def execRolZpx (b : Byte) (s : State) : Result :=
  modify (.zpx b) s (ShiftOp.apply .rol)

/-- ROL ABS, opcode 0x2E (R163). -/
def execRolAbs (w : Word) (s : State) : Result :=
  modify (.abs w) s (ShiftOp.apply .rol)

/-- ROL ABX, opcode 0x3E (R163). -/
def execRolAbx (w : Word) (s : State) : Result :=
  modify (.abx w) s (ShiftOp.apply .rol)

/-- ROR ACC, opcode 0x6A (R164). -/
def execRorAcc (s : State) : Result :=
  shiftAc .ror s

/-- ROR ZP, opcode 0x66 (R164). -/
def execRorZp (b : Byte) (s : State) : Result :=
  modify (.zp b) s (ShiftOp.apply .ror)

/-- ROR ZPX, opcode 0x76 (R164). -/
def execRorZpx (b : Byte) (s : State) : Result :=
  modify (.zpx b) s (ShiftOp.apply .ror)

/-- ROR ABS, opcode 0x6E (R164). -/
def execRorAbs (w : Word) (s : State) : Result :=
  modify (.abs w) s (ShiftOp.apply .ror)

/-- ROR ABX, opcode 0x7E (R164). -/
def execRorAbx (w : Word) (s : State) : Result :=
  modify (.abx w) s (ShiftOp.apply .ror)

end Sys2Proof.Machine
end

