-- ==== Sys2Proof/Machine/Stack.lean ====
section
/-! DEFINITION. Stack instructions (spec/47_stack_transfer_flag.md R174 to R177): PHA PHP PLA PLP. -/

namespace Sys2Proof.Machine

/-- PHA IMP, opcode 0x48 (R174). -/
def execPha (s : State) : Result :=
  .next (s.push s.ac)

/-- PHP IMP, opcode 0x08 (R175). -/
def execPhp (s : State) : Result :=
  .next (s.push (s.sr ||| s.cfg.phpOrMask))

/-- PLA IMP, opcode 0x68 (R176). -/
def execPla (s : State) : Result :=
  let (v, t) := s.pop
  .next ((t.setAc v).setZN v)

/-- PLP IMP, opcode 0x28 (R177). -/
def execPlp (s : State) : Result :=
  let (v, t) := s.pop
  .next (t.setSr v)

end Sys2Proof.Machine
end

