-- ==== Sys2Proof/Machine/IncDec.lean ====
section
/-! DEFINITION. Increment and decrement (spec/43_incdec.md R130 to R136): INC DEC INX INY DEX DEY. -/

namespace Sys2Proof.Machine

/-- INC (R131): the operand plus one mod 256, Z and N from it. -/
def incByte (v sr : Byte) : Byte × Byte :=
  (v + 1, setZN (v + 1) sr)

/-- DEC (R132): the operand minus one mod 256, Z and N from it. -/
def decByte (v sr : Byte) : Byte × Byte :=
  (v - 1, setZN (v - 1) sr)

/-- INC ZP, opcode 0xE6 (R131). -/
def execIncZp (b : Byte) (s : State) : Result :=
  modify (.zp b) s incByte

/-- INC ZPX, opcode 0xF6 (R131). -/
def execIncZpx (b : Byte) (s : State) : Result :=
  modify (.zpx b) s incByte

/-- INC ABS, opcode 0xEE (R131). -/
def execIncAbs (w : Word) (s : State) : Result :=
  modify (.abs w) s incByte

/-- INC ABX, opcode 0xFE (R131). -/
def execIncAbx (w : Word) (s : State) : Result :=
  modify (.abx w) s incByte

/-- DEC ZP, opcode 0xC6 (R132). -/
def execDecZp (b : Byte) (s : State) : Result :=
  modify (.zp b) s decByte

/-- DEC ZPX, opcode 0xD6 (R132). -/
def execDecZpx (b : Byte) (s : State) : Result :=
  modify (.zpx b) s decByte

/-- DEC ABS, opcode 0xCE (R132). -/
def execDecAbs (w : Word) (s : State) : Result :=
  modify (.abs w) s decByte

/-- DEC ABX, opcode 0xDE (R132). -/
def execDecAbx (w : Word) (s : State) : Result :=
  modify (.abx w) s decByte

/-- `XR` takes a computed value, Z and N from it (R133, R135, R178, R182). -/
def putXr (v : Byte) (s : State) : Result :=
  .next ((s.setXr v).setZN v)

/-- `YR` takes a computed value, Z and N from it (R134, R136, R179). -/
def putYr (v : Byte) (s : State) : Result :=
  .next ((s.setYr v).setZN v)

/-- INX IMP, opcode 0xE8 (R133). -/
def execInx (s : State) : Result :=
  putXr (s.xr + 1) s

/-- INY IMP, opcode 0xC8 (R134). -/
def execIny (s : State) : Result :=
  putYr (s.yr + 1) s

/-- DEX IMP, opcode 0xCA (R135). -/
def execDex (s : State) : Result :=
  putXr (s.xr - 1) s

/-- DEY IMP, opcode 0x88 (R136). -/
def execDey (s : State) : Result :=
  putYr (s.yr - 1) s

end Sys2Proof.Machine
end

