-- ==== Sys2Proof/Machine/Transfer.lean ====
section
/-! DEFINITION. Register transfers and no operation (spec/47_stack_transfer_flag.md R178 to R183, R191): TAX TAY TXA
TYA TSX TXS NOP. -/

namespace Sys2Proof.Machine

/-- `AC` takes a value, Z and N from it (R180, R181). -/
def putAc (v : Byte) (s : State) : Result :=
  .next ((s.setAc v).setZN v)

/-- TAX IMP, opcode 0xAA (R178). -/
def execTax (s : State) : Result :=
  putXr s.ac s

/-- TAY IMP, opcode 0xA8 (R179). -/
def execTay (s : State) : Result :=
  putYr s.ac s

/-- TXA IMP, opcode 0x8A (R180). -/
def execTxa (s : State) : Result :=
  putAc s.xr s

/-- TYA IMP, opcode 0x98 (R181). -/
def execTya (s : State) : Result :=
  putAc s.yr s

/-- TSX IMP, opcode 0xBA (R182). -/
def execTsx (s : State) : Result :=
  putXr s.sp s

/-- TXS IMP, opcode 0x9A (R183). -/
def execTxs (s : State) : Result :=
  .next (s.setSp s.xr)

/-- NOP IMP, opcode 0xEA (R191). -/
def execNop (s : State) : Result :=
  .next s

end Sys2Proof.Machine
end

