-- ==== Sys2Proof/Machine/Fetch.lean ====
section
/-! DEFINITION. The parts of a step around `exec` (spec/49_dispatch.md R220 to R224): what the bus answers at `PC`,
the state after the fetch, the cycle accounting. -/

namespace Sys2Proof.Machine

/-- The three bytes the bus answers at `PC`, `PC + 1` and `PC + 2` when they are read one after the other (R54, R60).
Looking at them changes nothing; `State.fetched` says which of the three accesses happen. -/
def State.codeBytes (s : State) : List Byte :=
  [s.peek s.pc, (s.accessed 1).peek (s.pc + 1), (s.accessed 2).peek (s.pc + 2)]

/-- The instruction `PC` points at, `none` when the opcode byte is undefined (R221). -/
def State.fetchedInstr (s : State) : Option Instr :=
  match opcodeForm (s.peek s.pc) with
  | some f => some (f.instr ((s.accessed 1).peek (s.pc + 1)) ((s.accessed 2).peek (s.pc + 2)))
  | none => none

/-- How many bytes are read before the operation runs: the whole instruction, but JSR reads its operand bytes itself
(R15, R202). -/
def fetchLength (i : Instr) : Nat :=
  match i.mnemonic with
  | .jsr => 1
  | _ => i.length

/-- The state after the first `n` bytes at `PC` have been read through the bus (R220, R14). -/
def State.fetched (s : State) (n : Nat) : State :=
  (s.accessed n).setPc (s.pc + BitVec.ofNat 16 n)

/-- Cycle accounting (R224): a completed operation adds its base cost, a fault adds nothing (decision D19). -/
def chargeCycles (n : Nat) : Result → Result
  | .next t => .next (t.addCycles n)
  | .fault f => .fault f
  | .refused r => .refused r

/-- `Step()` once the opcode has been looked up (R220): the rest of the fetch, the operation, the cycles. -/
def State.runInstr (s : State) (i : Instr) : Result :=
  chargeCycles i.baseCycles (exec i (s.fetched (fetchLength i)))

/-- `Step()` (R220, R222). -/
def State.stepOnce (s : State) : Result :=
  match s.fetchedInstr with
  | some i => s.runInstr i
  | none => .fault (.unknownOpcode (s.peek s.pc) s.pc (s.fetched 1))

/-- Stores bytes at consecutive addresses of the backing store, the host's raw write (R57). -/
def State.poke (s : State) (a : Word) : List Byte → State
  | [] => s
  | v :: vs => (s.setMem (s.mem.write a.toNat v)).poke (a + 1) vs

end Sys2Proof.Machine
end

