-- ==== Sys2Proof/Machine/Step.lean ====
section
/-! DEFINITION. One step of the core (spec/49_dispatch.md R220). -/

namespace Sys2Proof.Machine

/-- One step is one instruction (R220). -/
def step : State → Host.Outcome State Fault Refusal :=
  State.stepOnce

/-- The state with an instruction stored where the next step fetches (the host's fixed name): its bytes are written
at `PC` in the backing store, and the intercept chain is emptied so that the fetch sees them (log entry 4). -/
def State.withFetchWord (s : State) (nbits w : Nat) : State :=
  (s.setHandlers []).poke s.pc (tableWordBytes nbits w)

end Sys2Proof.Machine
end

