-- ==== Sys2Proof/Machine/Session.lean ====
section
/-! DEFINITION. The host's side of the core: what it may do between steps (spec/20_memory.md R43, R46, R57;
10_state.md R10, R19, R20; 60_exceptions.md R243) and the sessions in which it steps the core (10_state.md R24;
49_dispatch.md R225 to R227). No step calls any of it. -/

namespace Sys2Proof.Machine

/-- `MemWrite(a, 1, v)` on any integer (R43): offered to the chain first; if no handler intercepts, range-checked and
stored. The chain sees the value's low byte, since a handler of the model answers to bytes (log entry 7). -/
def memWriteByte (a : Word) (v : Int) (s : State) : Result :=
  let b := BitVec.ofInt 8 v
  if s.intercepts a b then .next (s.accessed 1)
  else if 0 ≤ v ∧ v ≤ 255 then .next (s.busWrite a b)
  else .fault (.invalidWrite a v (s.accessed 1))

/-- `MemWrite(a, 2, w)` on any integer (R46; 91_not_in_source.md N27: the word range is checked first; log
entry 11). -/
def memWriteWord (a : Word) (w : Int) (s : State) : Result :=
  if 0 ≤ w ∧ w ≤ 65535 then .next (s.busWriteWord a (BitVec.ofInt 16 w))
  else .fault (.invalidWrite a w s)

/-- The host's raw write of one cell, a direct change of `M` (91_not_in_source.md N17; log entry 11), with the range
check every memory write has (R243). -/
def pokeByte (a : Word) (v : Int) (s : State) : Result :=
  if 0 ≤ v ∧ v ≤ 255 then .next (s.poke a [BitVec.ofInt 8 v])
  else .fault (.invalidWrite a v s)

/-- The host's flag set (R10, R20). -/
def State.encodeFlags (s : State) (flags : List (Flag × Bool)) : State :=
  s.setSr (Machine.encodeFlags flags s.sr)

/-- The host's flag get (R10, R19). -/
def State.decodeFlags (s : State) : StatusFlags :=
  Machine.decodeFlags s.sr

/-- Registers a handler, after those already there (R50, R51). The core never does this. -/
def registerHandler (h : Handler) (s : State) : State :=
  s.setHandlers (s.handlers ++ [h])

/-! ### What the host may do between two steps -/

/-- One act of the host between steps (R10, R20, R51, R57, R226). `cycles` is written by the step only (R23) and the
configuration by nobody (R25), so no act writes them (log entry 14). -/
inductive HostMove
  /-- Direct register set; the value is masked to the register's width (R10). -/
  | setAc (v : Int)
  | setXr (v : Int)
  | setYr (v : Int)
  | setSp (v : Int)
  | setSr (v : Int)
  | setPc (v : Int)
  /-- Direct flag set (R20). -/
  | setFlags (flags : List (Flag × Bool))
  /-- `MemWrite(a, 1, v)` (R43). -/
  | writeByte (a : Word) (v : Int)
  /-- `MemWrite(a, 2, w)` (R46). -/
  | writeWord (a : Word) (w : Int)
  /-- Raw write of one cell (R57). -/
  | pokeByte (a : Word) (v : Int)
  /-- Registration of a handler (R51). -/
  | register (h : Handler)
  /-- A stop request (R24). -/
  | stop
  deriving DecidableEq, Repr

/-- A stop request clears the flag (R24, R226). -/
def requestStop (s : State) : State :=
  s.setRunning false

/-- What an act of the host does. A memory write out of range is fatal (R243). -/
def hostMove (m : HostMove) (s : State) : Result :=
  match m with
  | .setAc v => .next (s.setAc (BitVec.ofInt 8 v))
  | .setXr v => .next (s.setXr (BitVec.ofInt 8 v))
  | .setYr v => .next (s.setYr (BitVec.ofInt 8 v))
  | .setSp v => .next (s.setSp (BitVec.ofInt 8 v))
  | .setSr v => .next (s.setSr (BitVec.ofInt 8 v))
  | .setPc v => .next (s.setPc (BitVec.ofInt 16 v))
  | .setFlags flags => .next (s.encodeFlags flags)
  | .writeByte a v => memWriteByte a v s
  | .writeWord a w => memWriteWord a w s
  | .pokeByte a v => Machine.pokeByte a v s
  | .register h => .next (registerHandler h s)
  | .stop => .next (requestStop s)

/-! ### Runs -/

/-- What happens in a run: a step of the core, or an act of the host between two steps (R226, R228). -/
inductive Event
  | step
  | host (m : HostMove)
  deriving DecidableEq, Repr

/-- Goes on from a next state; a fault or a refusal ends the run (R240). -/
def andThen (r : Result) (k : State → Result) : Result :=
  match r with
  | .next t => k t
  | .fault f => .fault f
  | .refused x => .refused x

/-- One event of a run. -/
def runEvent (e : Event) (s : State) : Result :=
  match e with
  | .step => step s
  | .host m => hostMove m s

/-- A run (R226): zero or more steps with acts of the host between them, ending early at a fault. -/
def runEvents : List Event → State → Result
  | [], s => .next s
  | e :: es, s => andThen (runEvent e s) (runEvents es)

/-- Acts of the host, one after the other. -/
def hostMoves (ms : List HostMove) : State → Result :=
  runEvents (ms.map Event.host)

/-- A run of `n` steps in which the host does nothing. -/
def stepsThen (n : Nat) : State → Result :=
  runEvents (List.replicate n Event.step)

/-- The host's single-step with its post-step callback (R225): `running` is set for the duration of the step (R24) and
is clear again when the callback runs. `callback` is what the host does on seeing the state after the step. A fault
carries the state inside the session, and no callback runs (log entry 9). -/
def singleStep (callback : State → List HostMove) (s : State) : Result :=
  andThen (step (s.setRunning true)) fun t =>
    hostMoves (callback (t.setRunning false)) (t.setRunning false)

/-- A run begins (R24, R226). -/
def beginRun (s : State) : State :=
  s.setRunning true

/-- One batch and the callback after it (R226). The flag is not looked at inside. -/
def runBatch (batch : List Event) (callback : State → List HostMove) (s : State) : Result :=
  andThen (runEvents batch s) fun t => hostMoves (callback t) t

/-- Batches until stopped (R226): the flag is checked once per batch. DESIGN CHOICE, log entry 15: the check is before each
batch, so a stop asked for in a batch or in its callback prevents the next. `batch k s` is batch number `k`
when it starts in `s`, of any size and with any acts of the host between its steps (U20, 91_not_in_source.md N16);
`callback k t` is what the host does after it in `t`. `none`: not stopped within `fuel` batches. -/
def runBatches (batch : Nat → State → List Event) (callback : Nat → State → List HostMove) :
    Nat → Nat → State → Option Result
  | 0, _, s => if s.running then none else some (.next s)
  | fuel + 1, k, s =>
    if s.running then
      match runBatch (batch k s) (callback k) s with
      | .next t => runBatches batch callback fuel (k + 1) t
      | .fault f => some (.fault f)
      | .refused x => some (.refused x)
    else some (.next s)

/-- The host's continuous run (R226): the flag is set, then batches run until a stop request has cleared it. -/
def continuousRun (batch : Nat → State → List Event) (callback : Nat → State → List HostMove) (fuel : Nat) (s : State) :
    Option Result :=
  runBatches batch callback fuel 0 (beginRun s)

/-- A run that ends at the first between-step state satisfying `HALT` (R227): `none` when the events run out before one
is met. A faulted outcome is never a normal end (R227, R240). DESIGN CHOICE, log entry 13: the state the run begins in
is tested too, so such a run may end with no step, and so is the state after each act of the host; `running` is left as
it is. -/
def runUntil (halt : State → Bool) : List Event → State → Option Result
  | [], s => if halt s then some (.next s) else none
  | e :: es, s =>
    if halt s then some (.next s)
    else
      match runEvent e s with
      | .next t => runUntil halt es t
      | .fault f => some (.fault f)
      | .refused x => some (.refused x)

end Sys2Proof.Machine
end

