-- ==== Sys2Proof/Safety.lean ====
section
/-! DEFINITION. The terms the claims use: registers and flags as names, what a frame is, which byte or address an
instruction's operand stands for, what a cell holds after a write that a handler may intercept, and what a safe
run is (spec/49_dispatch.md R227, R229; 60_exceptions.md R240). -/

namespace Sys2Proof.Machine

/-- The 8-bit registers besides `SR` (R11, R13). -/
inductive Reg
  | ac | xr | yr | sp
  deriving DecidableEq, Repr

/-- The register under its name. -/
def State.reg (s : State) : Reg → Byte
  | .ac => s.ac
  | .xr => s.xr
  | .yr => s.yr
  | .sp => s.sp

/-- From `s` to `t` only the registers of `regs`, the flags of `flags`, `PC`, memory and `draws` may have changed
(R18, R229). Each obligation says separately what happens to `PC` and to memory. -/
structure Frame (regs : List Reg) (flags : List Flag) (s t : State) : Prop where
  regs : ∀ r, r ∉ regs → t.reg r = s.reg r
  flags : ∀ f, f ∉ flags → t.flag f = s.flag f
  cycles : t.cycles = s.cycles
  running : t.running = s.running
  handlers : t.handlers = s.handlers
  cfg : t.cfg = s.cfg

/-- Every cell outside `cells` reads as before. -/
def StoresOnly (cells : List Word) (s t : State) : Prop :=
  ∀ a : Word, a ∉ cells → t.mem.read a.toNat = s.mem.read a.toNat

/-- Z and N report the byte `v` (R21). -/
def ZNReport (v : Byte) (t : State) : Prop :=
  t.flag .Z = decide (v.toNat = 0) ∧ t.flag .N = decide (128 ≤ v.toNat)

/-- The operand form of an instruction: `none` in the modes `IMP` and `ACC` (R91, R92). -/
def operandOf (i : Instr) : Option Operand :=
  match i.mode, i.args with
  | .imm, .byte b => some (.imm b)
  | .zp, .byte b => some (.zp b)
  | .zpx, .byte b => some (.zpx b)
  | .zpy, .byte b => some (.zpy b)
  | .abs, .word w => some (.abs w)
  | .abx, .word w => some (.abx w)
  | .aby, .word w => some (.aby w)
  | .ind, .word w => some (.ind w)
  | .izx, .byte b => some (.izx b)
  | .izy, .byte b => some (.izy b)
  | .rel, .byte b => some (.rel b)
  | _, _ => none

/-- `v` is the byte instruction `i` reads as its operand when it runs in `s`. -/
def ReadsByte (i : Instr) (s : State) (v : Byte) : Prop :=
  ∃ o u, operandOf i = some o ∧ o.read s = .ok (v, u)

/-- `a` is the effective address of instruction `i` in `s`, by the resolver the meanings use, and `u` the state
after resolving (R90). -/
def ResolvesTo (i : Instr) (s : State) (a : Word) (u : State) : Prop :=
  ∃ o, operandOf i = some o ∧ o.ea s = .ok (a, u)

/-- The index sum of a zero-page indexed operand, 0 for every other form (R95, R96). -/
def Operand.indexSum (o : Operand) (s : State) : Nat :=
  match o with
  | .zpx b => b.toNat + s.xr.toNat
  | .zpy b => b.toNat + s.yr.toNat
  | _ => 0

/-- The index sum of an instruction's operand, 0 where there is none. -/
def indexSum (i : Instr) (s : State) : Nat :=
  match operandOf i with
  | some o => o.indexSum s
  | none => 0

/-- The zero-page index sum of `i` in `s` is out of range and the configuration makes that a fault (R95, R106). -/
def IndexFaults (i : Instr) (s : State) : Prop :=
  0xFF < indexSum i s ∧ s.cfg.zpIndexOverflow = .fault

/-- What cell `a` holds once the access after the next `k` accesses of `s` has written `v` to it: `v`, or what it
held before if a handler intercepts that write (R43). -/
def State.written (s : State) (k : Nat) (a : Word) (v : Byte) : Byte :=
  if (s.accessed k).intercepts a v then s.mem.read a.toNat else v

/-- No handler ever answers an access of `a` (R51: plain RAM). -/
def State.Unintercepted (s : State) (a : Word) : Prop :=
  ∀ d, chainRead s.handlers d a = none ∧ ∀ v, chainWrite s.handlers d a v = false

/-- The byte `b` is a packed BCD number: both nibbles are decimal digits. -/
def IsBcd (b : Byte) : Prop :=
  b.toNat / 16 ≤ 9 ∧ b.toNat % 16 ≤ 9

/-- The number a packed BCD byte stands for. -/
def bcdValue (b : Byte) : Nat :=
  10 * (b.toNat / 16) + b.toNat % 16

/-- The bytes without a table entry, by high nibble, as R80 lists them. -/
def undefinedOpcodes : List Byte :=
  [0x02, 0x03, 0x04, 0x07, 0x0B, 0x0C, 0x0F] ++ [0x12, 0x13, 0x14, 0x17, 0x1A, 0x1B, 0x1C, 0x1F] ++
  [0x22, 0x23, 0x27, 0x2B, 0x2F] ++ [0x32, 0x33, 0x34, 0x37, 0x3A, 0x3B, 0x3C, 0x3F] ++
  [0x42, 0x43, 0x44, 0x47, 0x4B, 0x4F] ++ [0x52, 0x53, 0x54, 0x57, 0x5A, 0x5B, 0x5C, 0x5F] ++
  [0x62, 0x63, 0x64, 0x67, 0x6B, 0x6F] ++ [0x72, 0x73, 0x74, 0x77, 0x7A, 0x7B, 0x7C, 0x7F] ++
  [0x80, 0x82, 0x83, 0x87, 0x89, 0x8B, 0x8F] ++ [0x92, 0x93, 0x97, 0x9B, 0x9C, 0x9E, 0x9F] ++
  [0xA3, 0xA7, 0xAB, 0xAF] ++ [0xB2, 0xB3, 0xB7, 0xBB, 0xBF] ++ [0xC2, 0xC3, 0xC7, 0xCB, 0xCF] ++
  [0xD2, 0xD3, 0xD4, 0xD7, 0xDA, 0xDB, 0xDC, 0xDF] ++ [0xE2, 0xE3, 0xE7, 0xEB, 0xEF] ++
  [0xF2, 0xF3, 0xF4, 0xF7, 0xFA, 0xFB, 0xFC, 0xFF]

/-- The invariant of the machine: the backing store is in canonical form. -/
def State.Inv (s : State) : Prop :=
  s.mem.wf = true

/-- A safe run: each of the first `n` steps from `s` answers a next state (R240). -/
def SafeFor : Nat → State → Prop
  | 0, _ => True
  | n + 1, s => ∃ t, step s = .next t ∧ SafeFor n t

end Sys2Proof.Machine
end

