-- ==== Sys2Proof/Certificates/Slice0/Obligations.lean ====
section
/-! DEFINITION. The statements for the provers. Each docstring names the rules of spec/ it formalises. A statement
about `exec i s` is about the state `s` the operation runs in: the operand bytes are fetched and `PC` is the address
of the next instruction (R15; JSR: of its first operand byte). `StepRunsDecodedInstruction` joins it to `step`. -/

open Sys2Proof Sys2Proof.Machine

/-! ### The status register -/

/-- R21 (10_state.md): `SetZN(v)` sets Z iff `v` is 0, copies bit 7 into N and writes no other bit. -/
def Obligations.SetZeroNegative : Prop :=
  ∀ v sr : Byte,
    getFlag .Z (setZN v sr) = decide (v.toNat = 0) ∧
    getFlag .N (setZN v sr) = decide (128 ≤ v.toNat) ∧
    ∀ f, f ≠ .Z → f ≠ .N → getFlag f (setZN v sr) = getFlag f sr

/-- R20 (10_state.md): `encode` sets exactly the flags present and true and keeps every other bit. -/
def Obligations.EncodeFlagsOnlySets : Prop :=
  ∀ (flags : List (Flag × Bool)) (sr : Byte) (f : Flag),
    getFlag f (encodeFlags flags sr) = (getFlag f sr || flags.contains (f, true))

/-! ### Memory and the bus -/

/-- R42, R50, R51 (20_memory.md): an empty chain answers nothing; on a read the last defined answer of the chain wins,
whatever earlier handlers answered; a write is intercepted iff some handler intercepts it. Handler `k` of the chain is
asked at draw `d + k`. -/
def Obligations.LastDefinedAnswerWins : Prop :=
  (∀ (d : Nat) (a : Word), chainRead [] d a = none) ∧
  (∀ (hs : List Handler) (h : Handler) (d : Nat) (a : Word) (v : Byte),
    h.onRead (d + hs.length) a = some v → chainRead (hs ++ [h]) d a = some v) ∧
  (∀ (hs : List Handler) (h : Handler) (d : Nat) (a : Word),
    h.onRead (d + hs.length) a = none → chainRead (hs ++ [h]) d a = chainRead hs d a) ∧
  (∀ (hs : List Handler) (d : Nat) (a : Word) (v : Byte), chainWrite hs d a v = true ↔
    ∃ (k : Nat) (h : Handler), hs[k]? = some h ∧ h.onWrite (d + k) a v = true)

/-- R42, R43, R50 (20_memory.md): a bus read answers the chain's value or else the stored byte and changes no state of
the core; a bus write of a byte stores it iff no handler intercepts and changes nothing else. Each invokes every handler
of the chain once. -/
def Obligations.BusReadAndWriteEffect : Prop :=
  (∀ (s : State) (a : Word), (s.busRead a).2.mem = s.mem ∧
    Frame [] [] s (s.busRead a).2 ∧ (s.busRead a).2.pc = s.pc ∧
    (s.busRead a).2.draws = s.draws + s.handlers.length ∧
    (∀ v, chainRead s.handlers s.draws a = some v → (s.busRead a).1 = v) ∧
    (chainRead s.handlers s.draws a = none → (s.busRead a).1 = s.mem.read a.toNat)) ∧
  (∀ (s : State) (a : Word) (v : Byte), StoresOnly [a] s (s.busWrite a v) ∧
    Frame [] [] s (s.busWrite a v) ∧ (s.busWrite a v).pc = s.pc ∧
    (s.busWrite a v).draws = s.draws + s.handlers.length ∧
    (s.Inv → (s.busWrite a v).mem.read a.toNat = s.written 0 a v))

/-- R45 (20_memory.md): a word read is two byte reads, the low byte at the address, the high byte at the next one
mod 65,536, in that order. -/
def Obligations.WordReadLowByteFirst : Prop :=
  ∀ (s : State) (a : Word),
    (s.busReadWord a).1.toNat = 256 * ((s.accessed 1).peek (a + 1)).toNat + (s.peek a).toNat ∧
    (s.busReadWord a).2 = s.accessed 2

/-- R43, R46 (20_memory.md), R243 (60_exceptions.md), log entries 7 (which byte the chain is offered) and 11 (a word
out of range faults before any byte is offered): the host's write of any integer is dropped when a handler intercepts
it, whatever its range, is stored when it is in range, and faults with `InvalidWrite` when it is out of range and not
intercepted; memory is then unchanged. -/
def Obligations.HostWriteRangeChecked : Prop :=
  (∀ (a : Word) (v : Int) (s : State), s.intercepts a (BitVec.ofInt 8 v) = true →
    memWriteByte a v s = .next (s.accessed 1)) ∧
  (∀ (a : Word) (v : Int) (s : State), s.intercepts a (BitVec.ofInt 8 v) = false → ¬ (0 ≤ v ∧ v ≤ 255) →
    ∃ u, memWriteByte a v s = .fault (.invalidWrite a v u) ∧ u.mem = s.mem) ∧
  (∀ (a : Word) (v : Byte) (s : State), memWriteByte a (v.toNat : Int) s = .next (s.busWrite a v)) ∧
  (∀ (a : Word) (w : Int) (s : State), ¬ (0 ≤ w ∧ w ≤ 65535) →
    memWriteWord a w s = .fault (.invalidWrite a w s)) ∧
  (∀ (a w : Word) (s : State), memWriteWord a (w.toNat : Int) s =
    .next ((s.busWrite a (BitVec.ofNat 8 (w.toNat % 256))).busWrite (a + 1) (BitVec.ofNat 8 (w.toNat / 256))))

/-- R44 (20_memory.md): no instruction, and no step, raises `InvalidWrite`; the host's raw memory write can. -/
def Obligations.NoInstructionRaisesInvalidWrite : Prop :=
  (∀ (i : Instr) (s : State) (a : Word) (v : Int) (u : State), exec i s ≠ .fault (.invalidWrite a v u)) ∧
  (∀ (s : State) (a : Word) (v : Int) (u : State), step s ≠ .fault (.invalidWrite a v u)) ∧
  (∃ (a : Word) (v : Int) (s u : State), memWriteByte a v s = .fault (.invalidWrite a v u))

/-! ### Encoding -/

/-- R71, R73, R74, R84 (30_encoding.md): decoding an encoded well-formed instruction gives it back with whatever
follows, and every byte string that decodes is the encoding of what it decodes to. -/
def Obligations.DecodeEncodeRoundTrip : Prop :=
  (∀ (i : Instr) (rest : List Byte), i.wf = true → decode (encode i ++ rest) = .ok (i, rest)) ∧
  (∀ (bytes rest : List Byte) (i : Instr), decode bytes = .ok (i, rest) → bytes = encode i ++ rest)

/-- A few words written out from R74 and R82 (30_encoding.md) decode to what they stand for. -/
def Obligations.SampleWordsDecode : Prop :=
  decode [0xA9, 0xFF] = .ok (.ldaImm 0xFF, []) ∧
  decode [0x20, 0x00, 0x03] = .ok (.jsr 0x0300, []) ∧
  decode [0x60] = .ok (.rts, []) ∧
  decode [0x00] = .ok (.brk, []) ∧
  decode [0x6C, 0xFF, 0x30] = .ok (.jmpInd 0x30FF, []) ∧
  decode [0xB1, 0x17, 0xEA] = .ok (.ldaIzy 0x17, [0xEA]) ∧
  decode [0xBD, 0x34, 0x12] = .ok (.ldaAbx 0x1234, []) ∧
  decode [0xB6, 0x10] = .ok (.ldxZpy 0x10, []) ∧
  decode [0xD0, 0xFB] = .ok (.bne 0xFB, []) ∧
  decode [0x0A] = .ok (.aslAcc, [])

/-- R80 (30_encoding.md): the 105 bytes of its list, and no others, are undefined: the decoder refuses each by name,
and a step that fetches one faults with the byte and the address it came from. -/
def Obligations.UndefinedOpcodesAreRefused : Prop :=
  undefinedOpcodes.length = 105 ∧
  (∀ (op : Byte) (rest : List Byte), decode (op :: rest) = .error (.unknownOpcode op) ↔ op ∈ undefinedOpcodes) ∧
  (∀ s : State, s.peek s.pc ∈ undefinedOpcodes ↔ ∃ u, step s = .fault (.unknownOpcode (s.peek s.pc) s.pc u))

/-- R280 (70_reset_and_hazards.md): the base cost of every instruction by class and mode. -/
def Obligations.BaseCyclesByClass : Prop :=
  ∀ i : Instr,
    (i.mnemonic ∈ [.lda, .ldx, .ldy, .and, .ora, .eor, .adc, .sbc, .cmp, .cpx, .cpy, .bit] →
      (i.mode, i.baseCycles) ∈ [(Mode.imm, 2), (.zp, 3), (.zpx, 4), (.zpy, 4), (.abs, 4), (.abx, 4), (.aby, 4),
        (.izx, 6), (.izy, 5)]) ∧
    (i.mnemonic ∈ [.sta, .stx, .sty] →
      (i.mode, i.baseCycles) ∈ [(Mode.zp, 3), (.zpx, 4), (.zpy, 4), (.abs, 4), (.abx, 5), (.aby, 5), (.izx, 6),
        (.izy, 6)]) ∧
    (i.mnemonic ∈ [.inc, .dec, .asl, .lsr, .rol, .ror] →
      (i.mode, i.baseCycles) ∈ [(Mode.acc, 2), (.zp, 5), (.zpx, 6), (.abs, 6), (.abx, 7)]) ∧
    (i.mnemonic ∈ [.inx, .iny, .dex, .dey, .tax, .tay, .txa, .tya, .tsx, .txs, .clc, .sec, .cli, .sei, .cld, .sed,
      .clv, .nop] → i.baseCycles = 2) ∧
    (i.mnemonic ∈ [.pha, .php] → i.baseCycles = 3) ∧
    (i.mnemonic ∈ [.pla, .plp] → i.baseCycles = 4) ∧
    (i.mnemonic = .jmp → (i.mode, i.baseCycles) ∈ [(Mode.abs, 3), (.ind, 5)]) ∧
    (i.mnemonic ∈ [.jsr, .rts, .rti] → i.baseCycles = 6) ∧
    (i.mnemonic = .brk → i.baseCycles = 7) ∧
    (i.mnemonic ∈ [.bcc, .bcs, .beq, .bne, .bpl, .bmi, .bvc, .bvs] → i.baseCycles = 2)

/-! ### The resolver (40_addressing.md) -/

/-- R93 to R99, R104, R106: the modes that read no pointer. Only `ZPX` and `ZPY` can fault, when base plus index is
above 0xFF and `ZP_INDEX_OVERFLOW` says so; the other setting wraps. -/
def Obligations.ResolverDirectModes : Prop :=
  (∀ (b : Byte) (w : Word) (s : State),
    Operand.ea (.imm b) s = .ok (s.pc - 1, s) ∧
    Operand.ea (.zp b) s = .ok (BitVec.ofNat 16 b.toNat, s) ∧
    Operand.ea (.abs w) s = .ok (w, s) ∧
    Operand.ea (.abx w) s = .ok (BitVec.ofNat 16 (w.toNat + s.xr.toNat), s) ∧
    Operand.ea (.aby w) s = .ok (BitVec.ofNat 16 (w.toNat + s.yr.toNat), s) ∧
    Operand.ea (.rel b) s =
      .ok (BitVec.ofInt 16 ((s.pc.toNat : Int) + (if b.toNat < 128 then (b.toNat : Int) else b.toNat - 256)), s)) ∧
  (∀ (b : Byte) (s : State) (o : Operand) (i : Byte), (o = .zpx b ∧ i = s.xr) ∨ (o = .zpy b ∧ i = s.yr) →
    (b.toNat + i.toNat ≤ 0xFF → o.ea s = .ok (BitVec.ofNat 16 (b.toNat + i.toNat), s)) ∧
    (0xFF < b.toNat + i.toNat → s.cfg.zpIndexOverflow = .fault →
      o.ea s = .error (.addressRangeViolation (b.toNat + i.toNat) s)) ∧
    (0xFF < b.toNat + i.toNat → s.cfg.zpIndexOverflow = .wrap →
      o.ea s = .ok (BitVec.ofNat 16 (b.toNat + i.toNat - 256), s)))

/-- R100: the target of an absolute-indirect jump; with `COMPAT` a pointer that ends a page takes its high byte from
offset 0 of that page. -/
def Obligations.ResolverAbsoluteIndirect : Prop :=
  ∀ (p : Word) (s : State), ∃ ea : Word, Operand.ea (.ind p) s = .ok (ea, s.accessed 2) ∧
    (s.cfg.compat = true → p.toNat % 256 = 255 →
      ea.toNat = 256 * ((s.accessed 1).peek (BitVec.ofNat 16 (p.toNat - 255))).toNat + (s.peek p).toNat) ∧
    (¬ (s.cfg.compat = true ∧ p.toNat % 256 = 255) →
      ea.toNat = 256 * ((s.accessed 1).peek (p + 1)).toNat + (s.peek p).toNat)

/-- R101, R102, R103: the two indirect modes read a pointer in page zero, whose high byte, for a pointer at 0xFF, comes
from 0x0000 or 0x0100 as `ZP_PTR_WRAP` says. `IZX` adds X to the pointer address mod 256. `IZY` adds Y to the pointer
read: the carry out of the low byte goes into the high byte and a carry out of the high byte is dropped. -/
def Obligations.ResolverZeroPagePointers : Prop :=
  (∀ (p : Byte) (s : State), (zpWord p s).2 = s.accessed 2 ∧
    (p.toNat < 255 ∨ s.cfg.zpPtrWrap = false → (zpWord p s).1.toNat =
      256 * ((s.accessed 1).peek (BitVec.ofNat 16 (p.toNat + 1))).toNat + (s.peek (BitVec.ofNat 16 p.toNat)).toNat) ∧
    (p.toNat = 255 → s.cfg.zpPtrWrap = true → (zpWord p s).1.toNat =
      256 * ((s.accessed 1).peek 0x0000).toNat + (s.peek 0x00FF).toNat)) ∧
  (∀ (b : Byte) (s : State),
    Operand.ea (.izx b) s = .ok (zpWord (BitVec.ofNat 8 ((b.toNat + s.xr.toNat) % 256)) s)) ∧
  (∀ (b : Byte) (s : State), ∃ ea : Word, Operand.ea (.izy b) s = .ok (ea, s.accessed 2) ∧
    ea.toNat % 256 = ((zpWord b s).1.toNat % 256 + s.yr.toNat) % 256 ∧
    ea.toNat / 256 = ((zpWord b s).1.toNat / 256 +
      (if 255 < (zpWord b s).1.toNat % 256 + s.yr.toNat then 1 else 0)) % 256)

/-- R90, R93, R95, R96, R106: resolving changes nothing but the free-value counter and its only fault is the one of
`ZPX` and `ZPY`; the byte read is the operand byte of `IMM` and otherwise what one access of the effective address
answers after resolving; and every operand form of every instruction resolves and reads unless its zero-page index sum
faults. -/
def Obligations.ResolverChangesNothing : Prop :=
  (∀ (o : Operand) (s : State) (a : Word) (u : State), o.ea s = .ok (a, u) →
    Frame [] [] s u ∧ u.pc = s.pc ∧ u.mem = s.mem) ∧
  (∀ (o : Operand) (s : State) (f : Fault), o.ea s = .error f →
    s.cfg.zpIndexOverflow = .fault ∧ ∃ b i : Byte, 0xFF < b.toNat + i.toNat ∧
      f = .addressRangeViolation (b.toNat + i.toNat) s ∧
      ((o = .zpx b ∧ i = s.xr) ∨ (o = .zpy b ∧ i = s.yr))) ∧
  (∀ (b : Byte) (s : State), Operand.read (.imm b) s = .ok (b, s)) ∧
  (∀ (o : Operand) (s : State) (a : Word) (u : State), (∀ b, o ≠ .imm b) → o.ea s = .ok (a, u) →
    o.read s = .ok (u.peek a, u.accessed 1)) ∧
  (∀ (o : Operand) (s : State) (f : Fault), o.ea s = .error f → o.read s = .error f) ∧
  (∀ (i : Instr) (s : State) (o : Operand), operandOf i = some o → ¬ IndexFaults i s →
    (∃ v, ReadsByte i s v) ∧ (∃ a u, ResolvesTo i s a u))

/-! ### Loads, stores, logic (41_load_store.md, 42_logic_bit.md) -/

/-- R110 to R113: LDA LDX LDY in all their forms: the register takes the byte, Z and N report it, nothing else
changes. -/
def Obligations.LoadsSetRegister : Prop :=
  ∀ (i : Instr) (s : State) (v : Byte), ReadsByte i s v →
    (i.mnemonic = .lda → ∃ t, exec i s = .next t ∧ t.ac = v ∧ ZNReport v t ∧ t.pc = s.pc ∧
      Frame [.ac] [.Z, .N] s t ∧ StoresOnly [] s t) ∧
    (i.mnemonic = .ldx → ∃ t, exec i s = .next t ∧ t.xr = v ∧ ZNReport v t ∧ t.pc = s.pc ∧
      Frame [.xr] [.Z, .N] s t ∧ StoresOnly [] s t) ∧
    (i.mnemonic = .ldy → ∃ t, exec i s = .next t ∧ t.yr = v ∧ ZNReport v t ∧ t.pc = s.pc ∧
      Frame [.yr] [.Z, .N] s t ∧ StoresOnly [] s t)

/-- R110, R114 to R116: STA STX STY in all their forms: the register is written at the effective address and
nowhere else, unless a handler intercepts, with one access after resolving (R54); no register and no flag changes. -/
def Obligations.StoresWriteRegister : Prop :=
  ∀ (i : Instr) (s : State) (a : Word) (u : State) (v : Byte), ResolvesTo i s a u →
    (i.mnemonic = .sta ∧ v = s.ac) ∨ (i.mnemonic = .stx ∧ v = s.xr) ∨ (i.mnemonic = .sty ∧ v = s.yr) →
    ∃ t, exec i s = .next t ∧ StoresOnly [a] s t ∧ (s.Inv → t.mem.read a.toNat = u.written 0 a v) ∧
      t.draws = u.draws + u.handlers.length ∧ t.pc = s.pc ∧ Frame [] [] s t

/-- R120 to R123: AND ORA EOR in all their forms. -/
def Obligations.LogicCombinesAccumulator : Prop :=
  ∀ (i : Instr) (s : State) (m r : Byte), ReadsByte i s m →
    (i.mnemonic = .and ∧ r = s.ac &&& m) ∨ (i.mnemonic = .ora ∧ r = s.ac ||| m) ∨
      (i.mnemonic = .eor ∧ r = s.ac ^^^ m) →
    ∃ t, exec i s = .next t ∧ t.ac = r ∧ ZNReport r t ∧ t.pc = s.pc ∧ Frame [.ac] [.Z, .N] s t ∧ StoresOnly [] s t

/-- R124: BIT: Z from the AND, N and V from bits 7 and 6 of the operand. -/
def Obligations.BitTestsOperand : Prop :=
  ∀ (i : Instr) (s : State) (m : Byte), ReadsByte i s m → i.mnemonic = .bit →
    ∃ t, exec i s = .next t ∧ t.flag .Z = decide (s.ac &&& m = 0) ∧ t.flag .N = m.getLsbD 7 ∧
      t.flag .V = m.getLsbD 6 ∧ t.pc = s.pc ∧ Frame [] [.Z, .N, .V] s t ∧ StoresOnly [] s t

/-! ### Increment and decrement, compares (43_incdec.md, 44_compare.md) -/

/-- R130 to R132: INC and DEC in all their forms: one read and one write of the effective address and no other
access after resolving (R54), mod 256, Z and N from the result. -/
def Obligations.IncDecMemory : Prop :=
  ∀ (i : Instr) (s : State) (a : Word) (u : State) (r : Byte), ResolvesTo i s a u →
    (i.mnemonic = .inc ∧ r.toNat = ((u.peek a).toNat + 1) % 256) ∨
      (i.mnemonic = .dec ∧ r.toNat = ((u.peek a).toNat + 255) % 256) →
    ∃ t, exec i s = .next t ∧ StoresOnly [a] s t ∧ (s.Inv → t.mem.read a.toNat = u.written 1 a r) ∧
      t.draws = u.draws + 2 * u.handlers.length ∧ ZNReport r t ∧ t.pc = s.pc ∧ Frame [] [.Z, .N] s t

/-- R140 to R143: CMP CPX CPY in all their forms: C iff register >= operand unsigned, Z iff equal, N is bit 7 of the
difference mod 256. -/
def Obligations.ComparesReportDifference : Prop :=
  ∀ (i : Instr) (s : State) (m r : Byte), ReadsByte i s m →
    (i.mnemonic = .cmp ∧ r = s.ac) ∨ (i.mnemonic = .cpx ∧ r = s.xr) ∨ (i.mnemonic = .cpy ∧ r = s.yr) →
    ∃ t, exec i s = .next t ∧ t.flag .C = decide (m.toNat ≤ r.toNat) ∧ t.flag .Z = decide (r = m) ∧
      t.flag .N = decide (128 ≤ (r.toNat + 256 - m.toNat) % 256) ∧ t.pc = s.pc ∧
      Frame [] [.C, .Z, .N] s t ∧ StoresOnly [] s t

/-! ### Add and subtract (45_adc_sbc.md) -/

/-- R151, R154: ADC with D = 0 in all its forms: the sum mod 256, C the carry out, V iff the signed sum leaves
-128..127, Z and N from the result. -/
def Obligations.AdcBinary : Prop :=
  ∀ (i : Instr) (s : State) (m : Byte), ReadsByte i s m → i.mnemonic = .adc → s.flag .D = false →
    ∃ t, exec i s = .next t ∧
      t.ac.toNat = (s.ac.toNat + m.toNat + (if s.flag .C then 1 else 0)) % 256 ∧
      t.flag .C = decide (255 < s.ac.toNat + m.toNat + (if s.flag .C then 1 else 0)) ∧
      t.flag .V = decide (s.ac.toInt + m.toInt + (if s.flag .C then 1 else 0) < -128 ∨
        127 < s.ac.toInt + m.toInt + (if s.flag .C then 1 else 0)) ∧
      ZNReport t.ac t ∧ t.pc = s.pc ∧ Frame [.ac] [.N, .V, .Z, .C] s t ∧ StoresOnly [] s t

/-- R155: SBC with D = 0 in all its forms: the difference less the borrow mod 256, C iff no borrow, V iff the signed
difference leaves -128..127, Z and N from the result. -/
def Obligations.SbcBinary : Prop :=
  ∀ (i : Instr) (s : State) (m : Byte), ReadsByte i s m → i.mnemonic = .sbc → s.flag .D = false →
    ∃ t, exec i s = .next t ∧
      t.ac = BitVec.ofInt 8 ((s.ac.toNat : Int) - m.toNat - (if s.flag .C then 0 else 1)) ∧
      t.flag .C = decide ((0 : Int) ≤ (s.ac.toNat : Int) - m.toNat - (if s.flag .C then 0 else 1)) ∧
      t.flag .V = decide (s.ac.toInt - m.toInt - (if s.flag .C then 0 else 1) < -128 ∨
        127 < s.ac.toInt - m.toInt - (if s.flag .C then 0 else 1)) ∧
      ZNReport t.ac t ∧ t.pc = s.pc ∧ Frame [.ac] [.N, .V, .Z, .C] s t ∧ StoresOnly [] s t

/-- R152, R153, R154, R155: ADC and SBC with D = 1 in all their forms and on every byte: the nibble arithmetic, Z
from the binary sum, N and V from the high nibble sum before its last correction, C as `DEC_CARRY` selects. SBC runs
the same adder on the operand's complement `x`. -/
def Obligations.DecimalAddAndSubtract : Prop :=
  ∀ (i : Instr) (s : State) (m : Byte) (x c lo hi hi' : Nat), ReadsByte i s m → s.flag .D = true →
    (i.mnemonic = .adc ∧ x = m.toNat) ∨ (i.mnemonic = .sbc ∧ x = 255 - m.toNat) →
    c = (if s.flag .C then 1 else 0) →
    lo = (if 9 < s.ac.toNat % 16 + x % 16 + c then s.ac.toNat % 16 + x % 16 + c + 6
      else s.ac.toNat % 16 + x % 16 + c) →
    hi = 16 * (s.ac.toNat / 16 + x / 16 + (if 15 < lo then 1 else 0)) →
    hi' = (if 0x90 < hi then hi + 0x60 else hi) →
    ∃ t, exec i s = .next t ∧
      t.ac.toNat = 16 * (hi' / 16 % 16) + lo % 16 ∧
      t.flag .Z = decide ((s.ac.toNat + x + c) % 256 = 0) ∧
      t.flag .N = decide (hi / 128 % 2 = 1) ∧
      t.flag .V = decide (s.ac.toNat / 128 = x / 128 ∧ s.ac.toNat / 128 ≠ hi / 128 % 2) ∧
      (s.cfg.decCarry = .decimal → t.flag .C = decide (255 < hi')) ∧
      (s.cfg.decCarry = .binarySum → t.flag .C = decide (255 < s.ac.toNat + x + c)) ∧
      t.pc = s.pc ∧ Frame [.ac] [.N, .V, .Z, .C] s t ∧ StoresOnly [] s t

/-- R156, the document's decimal law: for BCD operands and carry-in 0, ADC with D = 1 gives the BCD of the sum mod
100, and C iff the sum is at least 100 (`DEC_CARRY` = Decimal). -/
def Obligations.DecimalAdcAddsBcdNumbers : Prop :=
  ∀ (i : Instr) (s : State) (m : Byte), ReadsByte i s m → i.mnemonic = .adc → s.flag .D = true →
    s.flag .C = false → s.cfg.decCarry = .decimal → IsBcd s.ac → IsBcd m →
    ∃ t, exec i s = .next t ∧ IsBcd t.ac ∧ bcdValue t.ac = (bcdValue s.ac + bcdValue m) % 100 ∧
      t.flag .C = decide (100 ≤ bcdValue s.ac + bcdValue m)

/-! ### Shifts and rotates (46_shift_rotate.md) -/

/-- R160 to R165: what the four operations compute from operand `v` and old carry `c`: the result as a number and
the bit lost. -/
def Obligations.ShiftResultsAreArithmetic : Prop :=
  ∀ (v : Byte) (c : Bool),
    (ShiftOp.asl.result v c).toNat = 2 * v.toNat % 256 ∧ ShiftOp.asl.carryOut v = decide (128 ≤ v.toNat) ∧
    (ShiftOp.rol.result v c).toNat = (2 * v.toNat + c.toNat) % 256 ∧
      ShiftOp.rol.carryOut v = decide (128 ≤ v.toNat) ∧
    (ShiftOp.lsr.result v c).toNat = v.toNat / 2 ∧ ShiftOp.lsr.carryOut v = decide (v.toNat % 2 = 1) ∧
    (ShiftOp.ror.result v c).toNat = v.toNat / 2 + 128 * c.toNat ∧
      ShiftOp.ror.carryOut v = decide (v.toNat % 2 = 1)

/-- R92, R160 to R164: the accumulator forms. -/
def Obligations.ShiftAccumulator : Prop :=
  ∀ (s : State) (i : Instr) (op : ShiftOp),
    (i, op) ∈ [(Instr.aslAcc, ShiftOp.asl), (.lsrAcc, .lsr), (.rolAcc, .rol), (.rorAcc, .ror)] →
    ∃ t, exec i s = .next t ∧ t.ac = op.result s.ac (s.flag .C) ∧ t.flag .C = op.carryOut s.ac ∧ ZNReport t.ac t ∧
      t.pc = s.pc ∧ Frame [.ac] [.C, .Z, .N] s t ∧ StoresOnly [] s t

/-- R160 to R164: the memory forms: one read and one write of the effective address and no other access after resolving
(R54). -/
def Obligations.ShiftMemory : Prop :=
  ∀ (i : Instr) (s : State) (a : Word) (u : State) (op : ShiftOp) (r : Byte), ResolvesTo i s a u →
    (i.mnemonic, op) ∈ [(Mnemonic.asl, ShiftOp.asl), (.lsr, .lsr), (.rol, .rol), (.ror, .ror)] →
    r = op.result (u.peek a) (s.flag .C) →
    ∃ t, exec i s = .next t ∧ StoresOnly [a] s t ∧ (s.Inv → t.mem.read a.toNat = u.written 1 a r) ∧
      t.draws = u.draws + 2 * u.handlers.length ∧ t.flag .C = op.carryOut (u.peek a) ∧ ZNReport r t ∧ t.pc = s.pc ∧
      Frame [] [.C, .Z, .N] s t

/-- R165: ROL then ROR, and ROR then ROL, on the accumulator restore it and the carry. -/
def Obligations.RotateRoundTrip : Prop :=
  ∀ s : State,
    (∃ t u, exec .rolAcc s = .next t ∧ exec .rorAcc t = .next u ∧ u.ac = s.ac ∧ u.flag .C = s.flag .C) ∧
    (∃ t u, exec .rorAcc s = .next t ∧ exec .rolAcc t = .next u ∧ u.ac = s.ac ∧ u.flag .C = s.flag .C)

/-! ### Stack, transfers, flag instructions (47_stack_transfer_flag.md) -/

/-- R170, R172: a push stores at 0x0100 + SP and then decrements SP mod 256; a word push stores the high byte there
and the low byte one cell below, SP falling by two. -/
def Obligations.PushStoresBelowTop : Prop :=
  (∀ (s : State) (v : Byte), StoresOnly [BitVec.ofNat 16 (256 + s.sp.toNat)] s (s.push v) ∧
    (s.Inv → (s.push v).mem.read (256 + s.sp.toNat) = s.written 0 (BitVec.ofNat 16 (256 + s.sp.toNat)) v) ∧
    (s.push v).sp = s.sp - 1 ∧ (s.push v).pc = s.pc ∧ Frame [.sp] [] s (s.push v)) ∧
  (∀ (s : State) (w : Word),
    StoresOnly [stackAddr s.sp, stackAddr (s.sp - 1)] s (s.pushWord w) ∧
    (s.Inv → (s.pushWord w).mem.read (stackAddr s.sp).toNat =
        s.written 0 (stackAddr s.sp) (BitVec.ofNat 8 (w.toNat / 256)) ∧
      (s.pushWord w).mem.read (stackAddr (s.sp - 1)).toNat =
        s.written 1 (stackAddr (s.sp - 1)) (BitVec.ofNat 8 (w.toNat % 256))) ∧
    (s.pushWord w).sp = s.sp - 2 ∧ (s.pushWord w).pc = s.pc ∧ Frame [.sp] [] s (s.pushWord w))

/-- R171, R173: a pop increments SP mod 256 and then reads 0x0100 + SP; a word pop takes the low byte first. -/
def Obligations.PopReadsAboveTop : Prop :=
  (∀ s : State, s.pop.1 = s.peek (BitVec.ofNat 16 (256 + (s.sp.toNat + 1) % 256)) ∧ s.pop.2.sp = s.sp + 1 ∧
    s.pop.2.pc = s.pc ∧ s.pop.2.mem = s.mem ∧ Frame [.sp] [] s s.pop.2) ∧
  (∀ s : State, s.popWord.1.toNat =
      256 * ((s.accessed 1).peek (stackAddr (s.sp + 2))).toNat + (s.peek (stackAddr (s.sp + 1))).toNat ∧
    s.popWord.2.sp = s.sp + 2 ∧ s.popWord.2.pc = s.pc ∧ s.popWord.2.mem = s.mem ∧ Frame [.sp] [] s s.popWord.2)

/-- R192: pushing then popping restores the value and SP, for bytes and for words, at every SP, provided the stack
cells involved are not intercepted. -/
def Obligations.StackRoundTrip : Prop :=
  (∀ (s : State) (v : Byte), s.Inv → s.Unintercepted (stackAddr s.sp) →
    (s.push v).pop.1 = v ∧ (s.push v).pop.2.sp = s.sp) ∧
  (∀ (s : State) (w : Word), s.Inv → s.Unintercepted (stackAddr s.sp) → s.Unintercepted (stackAddr (s.sp - 1)) →
    (s.pushWord w).popWord.1 = w ∧ (s.pushWord w).popWord.2.sp = s.sp)

/-- R174 to R177: PHA PHP PLA PLP (general knowledge in the spec, G2, log entry 10; decision D10). -/
def Obligations.StackInstructions : Prop :=
  ∀ s : State,
    (∃ t, exec .pha s = .next t ∧ t.sp = s.sp - 1 ∧ StoresOnly [stackAddr s.sp] s t ∧
      (s.Inv → t.mem.read (stackAddr s.sp).toNat = s.written 0 (stackAddr s.sp) s.ac) ∧ t.pc = s.pc ∧
      Frame [.sp] [] s t) ∧
    (∃ t, exec .php s = .next t ∧ t.sp = s.sp - 1 ∧ StoresOnly [stackAddr s.sp] s t ∧
      (s.Inv → t.mem.read (stackAddr s.sp).toNat = s.written 0 (stackAddr s.sp) (s.sr ||| s.cfg.phpOrMask)) ∧
      t.sr = s.sr ∧ t.pc = s.pc ∧ Frame [.sp] [] s t) ∧
    (∃ t, exec .pla s = .next t ∧ t.sp = s.sp + 1 ∧ t.ac = s.peek (stackAddr (s.sp + 1)) ∧ ZNReport t.ac t ∧
      t.pc = s.pc ∧ Frame [.ac, .sp] [.Z, .N] s t ∧ StoresOnly [] s t) ∧
    (∃ t, exec .plp s = .next t ∧ t.sp = s.sp + 1 ∧ t.sr = s.peek (stackAddr (s.sp + 1)) ∧ t.pc = s.pc ∧
      Frame [.sp] [.N, .V, .U, .B, .D, .I, .Z, .C] s t ∧ StoresOnly [] s t)

/-- R133 to R136, R178 to R183, R191: the instructions that only move registers: INX INY DEX DEY count mod 256, TAX TAY
TXA TYA TSX copy, and report the result in Z and N; TXS copies without flags; NOP changes nothing. The
spec marks the transfers and NOP as general knowledge (G2, log entry 10). -/
def Obligations.RegisterInstructions : Prop :=
  ∀ s : State,
    (∃ t, exec .inx s = .next t ∧ t.xr.toNat = (s.xr.toNat + 1) % 256 ∧ ZNReport t.xr t ∧ t.pc = s.pc ∧
      Frame [.xr] [.Z, .N] s t ∧ StoresOnly [] s t) ∧
    (∃ t, exec .iny s = .next t ∧ t.yr.toNat = (s.yr.toNat + 1) % 256 ∧ ZNReport t.yr t ∧ t.pc = s.pc ∧
      Frame [.yr] [.Z, .N] s t ∧ StoresOnly [] s t) ∧
    (∃ t, exec .dex s = .next t ∧ t.xr.toNat = (s.xr.toNat + 255) % 256 ∧ ZNReport t.xr t ∧ t.pc = s.pc ∧
      Frame [.xr] [.Z, .N] s t ∧ StoresOnly [] s t) ∧
    (∃ t, exec .dey s = .next t ∧ t.yr.toNat = (s.yr.toNat + 255) % 256 ∧ ZNReport t.yr t ∧ t.pc = s.pc ∧
      Frame [.yr] [.Z, .N] s t ∧ StoresOnly [] s t) ∧
    (∃ t, exec .tax s = .next t ∧ t.xr = s.ac ∧ ZNReport s.ac t ∧ t.pc = s.pc ∧ Frame [.xr] [.Z, .N] s t ∧
      StoresOnly [] s t) ∧
    (∃ t, exec .tay s = .next t ∧ t.yr = s.ac ∧ ZNReport s.ac t ∧ t.pc = s.pc ∧ Frame [.yr] [.Z, .N] s t ∧
      StoresOnly [] s t) ∧
    (∃ t, exec .txa s = .next t ∧ t.ac = s.xr ∧ ZNReport s.xr t ∧ t.pc = s.pc ∧ Frame [.ac] [.Z, .N] s t ∧
      StoresOnly [] s t) ∧
    (∃ t, exec .tya s = .next t ∧ t.ac = s.yr ∧ ZNReport s.yr t ∧ t.pc = s.pc ∧ Frame [.ac] [.Z, .N] s t ∧
      StoresOnly [] s t) ∧
    (∃ t, exec .tsx s = .next t ∧ t.xr = s.sp ∧ ZNReport s.sp t ∧ t.pc = s.pc ∧ Frame [.xr] [.Z, .N] s t ∧
      StoresOnly [] s t) ∧
    (∃ t, exec .txs s = .next t ∧ t.sp = s.xr ∧ t.pc = s.pc ∧ Frame [.sp] [] s t ∧ StoresOnly [] s t) ∧
    exec .nop s = .next s

/-- R184 to R190: CLC SEC CLI SEI CLD SED CLV write exactly their bit. The spec marks what these do as general knowledge
(G2, log entry 10). -/
def Obligations.FlagInstructionsWriteOneBit : Prop :=
  ∀ (s : State) (i : Instr) (f : Flag) (b : Bool),
    (i, f, b) ∈ [(Instr.clc, Flag.C, false), (.sec, .C, true), (.cli, .I, false), (.sei, .I, true),
      (.cld, .D, false), (.sed, .D, true), (.clv, .V, false)] →
    ∃ t, exec i s = .next t ∧ t.flag f = b ∧ t.pc = s.pc ∧ Frame [] [f] s t ∧ StoresOnly [] s t

/-! ### Control transfer (48_control_flow.md, 60_exceptions.md) -/

/-- R201: JMP in both forms sets PC to the effective address and changes nothing else. -/
def Obligations.JumpSetsPc : Prop :=
  ∀ (i : Instr) (s : State) (a : Word) (u : State), ResolvesTo i s a u → i.mnemonic = .jmp →
    ∃ t, exec i s = .next t ∧ t.pc = a ∧ Frame [] [] s t ∧ StoresOnly [] s t

/-- R202: JSR pushes `PC + 1`, high byte first, and then reads the target at PC; the target is the operand itself
when no handler and no push reaches the operand bytes. -/
def Obligations.JsrPushesThenJumps : Prop :=
  ∀ (s : State) (w : Word), ∃ t, exec (.jsr w) s = .next t ∧
    t.sp = s.sp - 2 ∧ StoresOnly [stackAddr s.sp, stackAddr (s.sp - 1)] s t ∧
    (s.Inv → t.mem.read (stackAddr s.sp).toNat =
        s.written 0 (stackAddr s.sp) (BitVec.ofNat 8 ((s.pc + 1).toNat / 256)) ∧
      t.mem.read (stackAddr (s.sp - 1)).toNat =
        s.written 1 (stackAddr (s.sp - 1)) (BitVec.ofNat 8 ((s.pc + 1).toNat % 256))) ∧
    t.pc.toNat = 256 * (((s.pushWord (s.pc + 1)).accessed 1).peek (s.pc + 1)).toNat +
      ((s.pushWord (s.pc + 1)).peek s.pc).toNat ∧
    (s.Unintercepted s.pc → s.Unintercepted (s.pc + 1) →
      s.pc ∉ [stackAddr s.sp, stackAddr (s.sp - 1)] → s.pc + 1 ∉ [stackAddr s.sp, stackAddr (s.sp - 1)] →
      s.mem.read s.pc.toNat = BitVec.ofNat 8 (w.toNat % 256) →
      s.mem.read (s.pc + 1).toNat = BitVec.ofNat 8 (w.toNat / 256) → t.pc = w) ∧
    Frame [.sp] [] s t

/-- R204, R247: BRK sets I and B, pushes the return address (its own address plus 2, that is `PC + 1` here) high byte
first and then the status with I and B set, and takes PC from 0xFFFE, 0xFFFF; it completes in every state. -/
def Obligations.BrkTakesTrap : Prop :=
  ∀ s : State, ∃ t, exec .brk s = .next t ∧
    t.flag .I = true ∧ t.flag .B = true ∧ t.sr = s.sr ||| 0x14 ∧ t.sp = s.sp - 3 ∧
    StoresOnly [stackAddr s.sp, stackAddr (s.sp - 1), stackAddr (s.sp - 2)] s t ∧
    (s.Inv → t.mem.read (stackAddr s.sp).toNat =
        s.written 0 (stackAddr s.sp) (BitVec.ofNat 8 ((s.pc + 1).toNat / 256)) ∧
      t.mem.read (stackAddr (s.sp - 1)).toNat =
        s.written 1 (stackAddr (s.sp - 1)) (BitVec.ofNat 8 ((s.pc + 1).toNat % 256)) ∧
      t.mem.read (stackAddr (s.sp - 2)).toNat = s.written 2 (stackAddr (s.sp - 2)) (s.sr ||| 0x14)) ∧
    t.pc.toNat = 256 * ((s.accessed 4).peek 0xFFFF).toNat + ((s.accessed 3).peek 0xFFFE).toNat ∧
    Frame [.sp] [.I, .B] s t

/-- R203, R205, R248: RTS pops a word, low byte first, and resumes one past it. RTI pops SR whole and then PC, low byte
first, with nothing added. -/
def Obligations.ReturnsPopTheirFrame : Prop :=
  ∀ s : State,
    (∃ t, exec .rts s = .next t ∧
      t.pc.toNat = (256 * ((s.accessed 1).peek (stackAddr (s.sp + 2))).toNat +
        (s.peek (stackAddr (s.sp + 1))).toNat + 1) % 65536 ∧
      t.sp = s.sp + 2 ∧ Frame [.sp] [] s t ∧ StoresOnly [] s t) ∧
    (∃ t, exec .rti s = .next t ∧
      t.sr = s.peek (stackAddr (s.sp + 1)) ∧
      t.pc.toNat = 256 * ((s.accessed 2).peek (stackAddr (s.sp + 3))).toNat +
        ((s.accessed 1).peek (stackAddr (s.sp + 2))).toNat ∧
      t.sp = s.sp + 3 ∧ Frame [.sp] [.N, .V, .U, .B, .D, .I, .Z, .C] s t ∧ StoresOnly [] s t)

/-- R206 to R214: a branch goes to the next instruction's address plus its signed offset, mod 65,536, iff its flag
test is true, and otherwise on to the next instruction; nothing else changes. -/
def Obligations.BranchesTestOneFlag : Prop :=
  ∀ (s : State) (b : Byte) (i : Instr) (f : Flag) (x : Bool),
    (i, f, x) ∈ [(Instr.bpl b, Flag.N, false), (.bmi b, .N, true), (.bvc b, .V, false), (.bvs b, .V, true),
      (.bcc b, .C, false), (.bcs b, .C, true), (.bne b, .Z, false), (.beq b, .Z, true)] →
    ∃ t, exec i s = .next t ∧
      (s.flag f = x → t.pc = BitVec.ofInt 16
        ((s.pc.toNat : Int) + (if b.toNat < 128 then (b.toNat : Int) else b.toNat - 256))) ∧
      (s.flag f ≠ x → t.pc = s.pc) ∧ Frame [] [] s t ∧ StoresOnly [] s t

/-- R203, R215: after a step that runs JSR, an RTS step from any state that has the same SP and the same two stack
cells, not intercepted, resumes at the address of the JSR plus 3 with SP as it was. -/
def Obligations.JsrThenRtsReturns : Prop :=
  ∀ (s t u : State) (w : Word), s.Inv → s.fetchedInstr = some (.jsr w) → step s = .next t →
    s.Unintercepted (stackAddr s.sp) → s.Unintercepted (stackAddr (s.sp - 1)) →
    u.Unintercepted (stackAddr s.sp) → u.Unintercepted (stackAddr (s.sp - 1)) →
    u.fetchedInstr = some .rts → u.sp = t.sp →
    u.mem.read (stackAddr s.sp).toNat = t.mem.read (stackAddr s.sp).toNat →
    u.mem.read (stackAddr (s.sp - 1)).toNat = t.mem.read (stackAddr (s.sp - 1)).toNat →
    ∃ v, step u = .next v ∧ v.pc = s.pc + 3 ∧ v.sp = s.sp

/-- R204, R205, R215: after a step that runs BRK, an RTI step from any state that has the same SP and the same three
stack cells, not intercepted, resumes at the address of the BRK plus 2, with SP as it was and SR the old one with I
and B set (decisions D21: set before the push, and D22: RTI loads all eight bits). -/
def Obligations.BrkThenRtiReturns : Prop :=
  ∀ s t u : State, s.Inv → s.fetchedInstr = some .brk → step s = .next t →
    (∀ k ∈ [s.sp, s.sp - 1, s.sp - 2], s.Unintercepted (stackAddr k) ∧ u.Unintercepted (stackAddr k) ∧
      u.mem.read (stackAddr k).toNat = t.mem.read (stackAddr k).toNat) →
    u.fetchedInstr = some .rti → u.sp = t.sp →
    ∃ v, step u = .next v ∧ v.pc = s.pc + 2 ∧ v.sp = s.sp ∧ v.sr = s.sr ||| 0x14

/-! ### The step (49_dispatch.md, 60_exceptions.md) -/

/-- R15, R202, R220, R223, R224, decisions D7 and D19, log entry 5 (JSR reads its operand bytes itself): when the
bytes the bus answers at PC decode to `i`, a step is `exec i` in the state past the fetched bytes (all of the
instruction; the opcode alone for JSR), and the base cost is added to a next state. -/
def Obligations.StepRunsDecodedInstruction : Prop :=
  ∀ (s u : State) (i : Instr) (rest : List Byte) (n : Nat), decode s.codeBytes = .ok (i, rest) →
    n = (if i.mnemonic = .jsr then 1 else i.length) →
    u = { s with pc := s.pc + BitVec.ofNat 16 n, draws := s.draws + n * s.handlers.length } →
    step s = match exec i u with
      | .next t => .next { t with cycles := t.cycles + i.baseCycles }
      | .fault f => .fault f
      | .refused r => .refused r

/-- R222, R241: a step raises `UnknownOpcode` exactly when the byte fetched is one of the 105 undefined ones; it reports
the byte and the address it came from, PC has advanced by one and nothing else has changed. -/
def Obligations.UndefinedOpcodeFaults : Prop :=
  ∀ s : State,
    (s.peek s.pc ∈ undefinedOpcodes → ∃ u, step s = .fault (.unknownOpcode (s.peek s.pc) s.pc u)) ∧
    (∀ op pc0 u, step s = .fault (.unknownOpcode op pc0 u) → s.peek s.pc ∈ undefinedOpcodes ∧
      op = s.peek s.pc ∧ pc0 = s.pc ∧ u.pc = s.pc + 1 ∧ u.mem = s.mem ∧ Frame [] [] s u)

/-- R242: a step raises `AddressRangeViolation` exactly when it runs an instruction of mode ZPX or ZPY whose operand
plus index exceeds 0xFF under `ZP_INDEX_OVERFLOW` = Fault; it records the sum, PC is past the opcode and the operand
byte, and no other register, flag or cell has changed; nor has `cycles` (decision D19, log entry 8). -/
def Obligations.IndexOverflowFaults : Prop :=
  (∀ (s : State) (i : Instr), s.fetchedInstr = some i →
    ((∃ sum u, step s = .fault (.addressRangeViolation sum u)) ↔ IndexFaults i s) ∧
    (∀ sum u, step s = .fault (.addressRangeViolation sum u) → sum = indexSum i s ∧
      0x100 ≤ sum ∧ sum ≤ 0x1FE ∧ u.pc = s.pc + 2 ∧ u.mem = s.mem ∧ Frame [] [] s u)) ∧
  (∀ i : Instr, i.mode = .zpx ∨ i.mode = .zpy ↔ (i.mode = .zpx ∧ i.mnemonic ∈ [.lda, .ldy, .sta, .sty, .and, .ora,
    .eor, .adc, .sbc, .cmp, .inc, .dec, .asl, .lsr, .rol, .ror]) ∨ (i.mode = .zpy ∧ i.mnemonic ∈ [.ldx, .stx]))

/-- R240, R245: an instruction runs to completion in every state unless its zero-page index sum faults: there is no
other fault and no refusal (no stack, jump, alignment, decimal or BRK fault). -/
def Obligations.EveryInstructionCompletes : Prop :=
  ∀ (i : Instr) (s : State),
    (¬ IndexFaults i s → ∃ t, exec i s = .next t) ∧
    (IndexFaults i s → exec i s = .fault (.addressRangeViolation (indexSum i s) s))

/-- R224: a successful step adds the base cost of the instruction it ran to `cycles`; a step that faults adds
nothing. -/
def Obligations.CycleAccounting : Prop :=
  ∀ s : State,
    (∀ t, step s = .next t → ∃ i, s.fetchedInstr = some i ∧ t.cycles = s.cycles + i.baseCycles ∧ s.cycles < t.cycles) ∧
    (∀ op pc0 u, step s = .fault (.unknownOpcode op pc0 u) → u.cycles = s.cycles) ∧
    (∀ sum u, step s = .fault (.addressRangeViolation sum u) → u.cycles = s.cycles)

/-! ### Whole-machine rules -/

/-- The reset state meets the invariant. -/
def Obligations.ResetMemoryCanonical : Prop :=
  State.reset.Inv

/-- R40: every step keeps the backing store in canonical form, from every state that has it so. -/
def Obligations.StepKeepsMemoryCanonical : Prop :=
  ∀ s t : State, s.Inv → step s = .next t → t.Inv

/-- R33, R34, R271 (10_state.md, 70_reset_and_hazards.md): whatever the launch parameters, `cycles` is 0 and `running`
false at creation, every other cell is the parameter given, and PC comes from no vector; the chain of the reset state
is empty. -/
def Obligations.CreationTakesLaunchValues : Prop :=
  (∀ l : Launch, (State.create l).cycles = 0 ∧ (State.create l).running = false ∧
    (State.create l).ac = l.initAc ∧ (State.create l).xr = l.initXr ∧ (State.create l).yr = l.initYr ∧
    (State.create l).sp = l.initSp ∧ (State.create l).sr = l.initSr ∧ (State.create l).pc = l.initPc ∧
    (State.create l).mem = l.mem0 ∧ (State.create l).handlers = l.handlers ∧ (State.create l).cfg = l.cfg) ∧
  (∃ l : Launch, State.reset = State.create l ∧ l.handlers = [])

/-- R10, R25, R51: no step changes the configuration or the intercept chain; nor the session flag, which is the model's
choice (log entry 9): `step` leaves it to the host's session operations. -/
def Obligations.StepKeepsConfiguration : Prop :=
  ∀ s t : State, step s = .next t → t.cfg = s.cfg ∧ t.handlers = s.handlers ∧ t.running = s.running

/-- R12, R13: only the listed instructions change AC, XR, YR and SP. -/
def Obligations.OnlyListedInstructionsWriteRegisters : Prop :=
  ∀ (s t : State) (i : Instr), s.fetchedInstr = some i → step s = .next t →
    (i.mnemonic ∉ [.lda, .and, .ora, .eor, .adc, .sbc, .pla, .txa, .tya] → i.mode ≠ .acc → t.ac = s.ac) ∧
    (i.mnemonic ∉ [.ldx, .inx, .dex, .tax, .tsx] → t.xr = s.xr) ∧
    (i.mnemonic ∉ [.ldy, .iny, .dey, .tay] → t.yr = s.yr) ∧
    (i.mnemonic ∉ [.pha, .php, .pla, .plp, .jsr, .rts, .brk, .rti, .txs] → t.sp = s.sp)

/-- R17, R18, R22: only the listed instructions change a flag; in particular D changes by CLD SED PLP RTI only and U by
PLP RTI only. -/
def Obligations.OnlyListedInstructionsWriteFlags : Prop :=
  ∀ (s t : State) (i : Instr), s.fetchedInstr = some i → step s = .next t →
    (i.mnemonic ∉ [.plp, .rti] → t.flag .U = s.flag .U) ∧
    (i.mnemonic ∉ [.plp, .rti, .brk] → t.flag .B = s.flag .B) ∧
    (i.mnemonic ∉ [.plp, .rti, .cld, .sed] → t.flag .D = s.flag .D) ∧
    (i.mnemonic ∉ [.plp, .rti, .brk, .cli, .sei] → t.flag .I = s.flag .I) ∧
    (i.mnemonic ∉ [.plp, .rti, .bit, .adc, .sbc, .clv] → t.flag .V = s.flag .V) ∧
    (i.mnemonic ∉ [.plp, .rti, .cmp, .cpx, .cpy, .adc, .sbc, .asl, .lsr, .rol, .ror, .clc, .sec] →
      t.flag .C = s.flag .C) ∧
    (i.mnemonic ∈ [.clc, .sec, .cli, .sei, .cld, .sed, .clv, .brk] → t.flag .N = s.flag .N ∧ t.flag .Z = s.flag .Z) ∧
    (i.mnemonic ∈ [.sta, .stx, .sty, .pha, .php, .jmp, .jsr, .rts, .bcc, .bcs, .beq, .bne, .bpl, .bmi, .bvc, .bvs,
      .txs, .nop] → t.sr = s.sr)

/-- R229, R27: only stores, memory read-modify-writes, PHA, PHP, JSR and BRK change a cell of memory. -/
def Obligations.OnlyListedInstructionsWriteMemory : Prop :=
  ∀ (s t : State) (i : Instr), s.fetchedInstr = some i → step s = .next t →
    i.mnemonic ∉ [.sta, .stx, .sty, .inc, .dec, .asl, .lsr, .rol, .ror, .pha, .php, .jsr, .brk] ∨ i.mode = .acc →
    t.mem = s.mem

/-- R14, R15, R16: every instruction other than JMP JSR RTS RTI BRK and the branches goes on to the next
instruction, mod 65,536. -/
def Obligations.OtherInstructionsAdvancePc : Prop :=
  ∀ (s t : State) (i : Instr), s.fetchedInstr = some i → step s = .next t →
    i.mnemonic ∉ [.jmp, .jsr, .rts, .rti, .brk, .bcc, .bcs, .beq, .bne, .bpl, .bmi, .bvc, .bvs] →
    t.pc.toNat = (s.pc.toNat + i.length) % 65536

/-- R23, R24: no instruction reads `cycles` or `running`: a step from the state with another count or session flag
gives the same next state up to them. -/
def Obligations.StepIgnoresCyclesAndRunning : Prop :=
  ∀ (s t : State) (k : Nat) (b : Bool), step s = .next t →
    step ((s.addCycles k).setRunning b) = .next ((t.addCycles k).setRunning b)

/-- R25: only absolute-indirect JMP reads `COMPAT`: every other instruction steps the same under both settings. -/
def Obligations.OnlyIndirectJumpReadsCompat : Prop :=
  ∀ (s t : State) (c : Bool) (i : Instr), s.fetchedInstr = some i → i.mode ≠ .ind → step s = .next t →
    step { s with cfg := { s.cfg with compat := c } } = .next { t with cfg := { t.cfg with compat := c } }

/-- Decision D1 (92_eei_decisions.md), R274: a run of `n` steps that is safe under `ZP_INDEX_OVERFLOW` = Fault is safe
under Wrap and ends in the same state, up to that setting. -/
def Obligations.SafeUnderFaultSameUnderWrap : Prop :=
  ∀ (n : Nat) (s t : State), s.cfg.zpIndexOverflow = .fault → stepsThen n s = .next t →
    stepsThen n { s with cfg := { s.cfg with zpIndexOverflow := .wrap } } =
      .next { t with cfg := { t.cfg with zpIndexOverflow := .wrap } }

/-- R60, R273 (20_memory.md, 70_reset_and_hazards.md): a store is seen by the fetch of the very next instruction: an
STA absolute over the following byte makes the next step run the instruction whose opcode was stored. -/
def Obligations.StoreSeenByNextFetch : Prop :=
  ∀ (s : State) (i : Instr), s.Inv → s.handlers = [] → s.fetchedInstr = some (.staAbs (s.pc + 3)) →
    i.length = 1 → s.ac = i.opcode →
    ∃ t, step s = .next t ∧ t.pc = s.pc + 3 ∧ t.fetchedInstr = some i

/-- R24, R225 to R227, log entries 9, 13, 14 and 15: a single-step is the step with `running` set and then the
callback's acts, in the state with the flag clear; a fault ends it before the callback. No act of the host between
steps changes the configuration or `cycles` (R23, R25; the model's reading of R10, log entry 14). A continuous run
that ends normally ends stopped; a batch in which, or after which, the host asks for a stop runs to its end with its
callback and is the last (log entry 15). A run until `HALT` ends normally in a state iff that is the first one
satisfying it, the one it begins in included (log entry 13). -/
def Obligations.SessionsStepTheCore : Prop :=
  (∀ (callback : State → List HostMove) (s t : State), step s = .next t →
    singleStep callback s = hostMoves (callback (t.setRunning false)) (t.setRunning false)) ∧
  (∀ (callback : State → List HostMove) (s : State) (f : Fault), step s = .fault f →
    ∃ g, singleStep callback s = .fault g) ∧
  (∀ (m : HostMove) (s t : State), hostMove m s = .next t → t.cfg = s.cfg ∧ t.cycles = s.cycles) ∧
  (∀ (batch : Nat → State → List Event) (callback : Nat → State → List HostMove) (n : Nat) (s t : State),
    (continuousRun batch callback n s = some (.next t) → t.running = false) ∧
    (runBatch (batch 0 (beginRun s)) (callback 0) (beginRun s) = .next t → t.running = false →
      continuousRun batch callback (n + 1) s = some (.next t))) ∧
  (∀ (halt : State → Bool) (es : List Event) (s t : State), runUntil halt es s = some (.next t) ↔
    halt t = true ∧ ∃ k, k ≤ es.length ∧ runEvents (es.take k) s = .next t ∧
      ∀ j, j < k → ∃ u, runEvents (es.take j) s = .next u ∧ halt u = false)
end

