-- ==== Sys2Proof/Laws/State.lean ====
section
/-! SUPPORT. One lemma per field per update of the state, true by `rfl`, so that no proof unfolds a record update. -/

namespace Sys2Proof.Machine

/-! ### `setAc` -/

@[simp] theorem State.setAc_ac (s : State) (v : Byte) : (s.setAc v).ac = v := rfl
@[simp] theorem State.setAc_xr (s : State) (v : Byte) : (s.setAc v).xr = s.xr := rfl
@[simp] theorem State.setAc_yr (s : State) (v : Byte) : (s.setAc v).yr = s.yr := rfl
@[simp] theorem State.setAc_sp (s : State) (v : Byte) : (s.setAc v).sp = s.sp := rfl
@[simp] theorem State.setAc_sr (s : State) (v : Byte) : (s.setAc v).sr = s.sr := rfl
@[simp] theorem State.setAc_pc (s : State) (v : Byte) : (s.setAc v).pc = s.pc := rfl
@[simp] theorem State.setAc_cycles (s : State) (v : Byte) : (s.setAc v).cycles = s.cycles := rfl
@[simp] theorem State.setAc_running (s : State) (v : Byte) : (s.setAc v).running = s.running := rfl
@[simp] theorem State.setAc_mem (s : State) (v : Byte) : (s.setAc v).mem = s.mem := rfl
@[simp] theorem State.setAc_handlers (s : State) (v : Byte) : (s.setAc v).handlers = s.handlers := rfl
@[simp] theorem State.setAc_draws (s : State) (v : Byte) : (s.setAc v).draws = s.draws := rfl
@[simp] theorem State.setAc_cfg (s : State) (v : Byte) : (s.setAc v).cfg = s.cfg := rfl

/-! ### `setXr` -/

@[simp] theorem State.setXr_ac (s : State) (v : Byte) : (s.setXr v).ac = s.ac := rfl
@[simp] theorem State.setXr_xr (s : State) (v : Byte) : (s.setXr v).xr = v := rfl
@[simp] theorem State.setXr_yr (s : State) (v : Byte) : (s.setXr v).yr = s.yr := rfl
@[simp] theorem State.setXr_sp (s : State) (v : Byte) : (s.setXr v).sp = s.sp := rfl
@[simp] theorem State.setXr_sr (s : State) (v : Byte) : (s.setXr v).sr = s.sr := rfl
@[simp] theorem State.setXr_pc (s : State) (v : Byte) : (s.setXr v).pc = s.pc := rfl
@[simp] theorem State.setXr_cycles (s : State) (v : Byte) : (s.setXr v).cycles = s.cycles := rfl
@[simp] theorem State.setXr_running (s : State) (v : Byte) : (s.setXr v).running = s.running := rfl
@[simp] theorem State.setXr_mem (s : State) (v : Byte) : (s.setXr v).mem = s.mem := rfl
@[simp] theorem State.setXr_handlers (s : State) (v : Byte) : (s.setXr v).handlers = s.handlers := rfl
@[simp] theorem State.setXr_draws (s : State) (v : Byte) : (s.setXr v).draws = s.draws := rfl
@[simp] theorem State.setXr_cfg (s : State) (v : Byte) : (s.setXr v).cfg = s.cfg := rfl

/-! ### `setYr` -/

@[simp] theorem State.setYr_ac (s : State) (v : Byte) : (s.setYr v).ac = s.ac := rfl
@[simp] theorem State.setYr_xr (s : State) (v : Byte) : (s.setYr v).xr = s.xr := rfl
@[simp] theorem State.setYr_yr (s : State) (v : Byte) : (s.setYr v).yr = v := rfl
@[simp] theorem State.setYr_sp (s : State) (v : Byte) : (s.setYr v).sp = s.sp := rfl
@[simp] theorem State.setYr_sr (s : State) (v : Byte) : (s.setYr v).sr = s.sr := rfl
@[simp] theorem State.setYr_pc (s : State) (v : Byte) : (s.setYr v).pc = s.pc := rfl
@[simp] theorem State.setYr_cycles (s : State) (v : Byte) : (s.setYr v).cycles = s.cycles := rfl
@[simp] theorem State.setYr_running (s : State) (v : Byte) : (s.setYr v).running = s.running := rfl
@[simp] theorem State.setYr_mem (s : State) (v : Byte) : (s.setYr v).mem = s.mem := rfl
@[simp] theorem State.setYr_handlers (s : State) (v : Byte) : (s.setYr v).handlers = s.handlers := rfl
@[simp] theorem State.setYr_draws (s : State) (v : Byte) : (s.setYr v).draws = s.draws := rfl
@[simp] theorem State.setYr_cfg (s : State) (v : Byte) : (s.setYr v).cfg = s.cfg := rfl

/-! ### `setSp` -/

@[simp] theorem State.setSp_ac (s : State) (v : Byte) : (s.setSp v).ac = s.ac := rfl
@[simp] theorem State.setSp_xr (s : State) (v : Byte) : (s.setSp v).xr = s.xr := rfl
@[simp] theorem State.setSp_yr (s : State) (v : Byte) : (s.setSp v).yr = s.yr := rfl
@[simp] theorem State.setSp_sp (s : State) (v : Byte) : (s.setSp v).sp = v := rfl
@[simp] theorem State.setSp_sr (s : State) (v : Byte) : (s.setSp v).sr = s.sr := rfl
@[simp] theorem State.setSp_pc (s : State) (v : Byte) : (s.setSp v).pc = s.pc := rfl
@[simp] theorem State.setSp_cycles (s : State) (v : Byte) : (s.setSp v).cycles = s.cycles := rfl
@[simp] theorem State.setSp_running (s : State) (v : Byte) : (s.setSp v).running = s.running := rfl
@[simp] theorem State.setSp_mem (s : State) (v : Byte) : (s.setSp v).mem = s.mem := rfl
@[simp] theorem State.setSp_handlers (s : State) (v : Byte) : (s.setSp v).handlers = s.handlers := rfl
@[simp] theorem State.setSp_draws (s : State) (v : Byte) : (s.setSp v).draws = s.draws := rfl
@[simp] theorem State.setSp_cfg (s : State) (v : Byte) : (s.setSp v).cfg = s.cfg := rfl

/-! ### `setSr` -/

@[simp] theorem State.setSr_ac (s : State) (v : Byte) : (s.setSr v).ac = s.ac := rfl
@[simp] theorem State.setSr_xr (s : State) (v : Byte) : (s.setSr v).xr = s.xr := rfl
@[simp] theorem State.setSr_yr (s : State) (v : Byte) : (s.setSr v).yr = s.yr := rfl
@[simp] theorem State.setSr_sp (s : State) (v : Byte) : (s.setSr v).sp = s.sp := rfl
@[simp] theorem State.setSr_sr (s : State) (v : Byte) : (s.setSr v).sr = v := rfl
@[simp] theorem State.setSr_pc (s : State) (v : Byte) : (s.setSr v).pc = s.pc := rfl
@[simp] theorem State.setSr_cycles (s : State) (v : Byte) : (s.setSr v).cycles = s.cycles := rfl
@[simp] theorem State.setSr_running (s : State) (v : Byte) : (s.setSr v).running = s.running := rfl
@[simp] theorem State.setSr_mem (s : State) (v : Byte) : (s.setSr v).mem = s.mem := rfl
@[simp] theorem State.setSr_handlers (s : State) (v : Byte) : (s.setSr v).handlers = s.handlers := rfl
@[simp] theorem State.setSr_draws (s : State) (v : Byte) : (s.setSr v).draws = s.draws := rfl
@[simp] theorem State.setSr_cfg (s : State) (v : Byte) : (s.setSr v).cfg = s.cfg := rfl

/-! ### `setPc` -/

@[simp] theorem State.setPc_ac (s : State) (w : Word) : (s.setPc w).ac = s.ac := rfl
@[simp] theorem State.setPc_xr (s : State) (w : Word) : (s.setPc w).xr = s.xr := rfl
@[simp] theorem State.setPc_yr (s : State) (w : Word) : (s.setPc w).yr = s.yr := rfl
@[simp] theorem State.setPc_sp (s : State) (w : Word) : (s.setPc w).sp = s.sp := rfl
@[simp] theorem State.setPc_sr (s : State) (w : Word) : (s.setPc w).sr = s.sr := rfl
@[simp] theorem State.setPc_pc (s : State) (w : Word) : (s.setPc w).pc = w := rfl
@[simp] theorem State.setPc_cycles (s : State) (w : Word) : (s.setPc w).cycles = s.cycles := rfl
@[simp] theorem State.setPc_running (s : State) (w : Word) : (s.setPc w).running = s.running := rfl
@[simp] theorem State.setPc_mem (s : State) (w : Word) : (s.setPc w).mem = s.mem := rfl
@[simp] theorem State.setPc_handlers (s : State) (w : Word) : (s.setPc w).handlers = s.handlers := rfl
@[simp] theorem State.setPc_draws (s : State) (w : Word) : (s.setPc w).draws = s.draws := rfl
@[simp] theorem State.setPc_cfg (s : State) (w : Word) : (s.setPc w).cfg = s.cfg := rfl

/-! ### `addCycles` -/

@[simp] theorem State.addCycles_ac (s : State) (n : Nat) : (s.addCycles n).ac = s.ac := rfl
@[simp] theorem State.addCycles_xr (s : State) (n : Nat) : (s.addCycles n).xr = s.xr := rfl
@[simp] theorem State.addCycles_yr (s : State) (n : Nat) : (s.addCycles n).yr = s.yr := rfl
@[simp] theorem State.addCycles_sp (s : State) (n : Nat) : (s.addCycles n).sp = s.sp := rfl
@[simp] theorem State.addCycles_sr (s : State) (n : Nat) : (s.addCycles n).sr = s.sr := rfl
@[simp] theorem State.addCycles_pc (s : State) (n : Nat) : (s.addCycles n).pc = s.pc := rfl
@[simp] theorem State.addCycles_cycles (s : State) (n : Nat) : (s.addCycles n).cycles = s.cycles + n := rfl
@[simp] theorem State.addCycles_running (s : State) (n : Nat) : (s.addCycles n).running = s.running := rfl
@[simp] theorem State.addCycles_mem (s : State) (n : Nat) : (s.addCycles n).mem = s.mem := rfl
@[simp] theorem State.addCycles_handlers (s : State) (n : Nat) : (s.addCycles n).handlers = s.handlers := rfl
@[simp] theorem State.addCycles_draws (s : State) (n : Nat) : (s.addCycles n).draws = s.draws := rfl
@[simp] theorem State.addCycles_cfg (s : State) (n : Nat) : (s.addCycles n).cfg = s.cfg := rfl

/-! ### `setRunning` -/

@[simp] theorem State.setRunning_ac (s : State) (b : Bool) : (s.setRunning b).ac = s.ac := rfl
@[simp] theorem State.setRunning_xr (s : State) (b : Bool) : (s.setRunning b).xr = s.xr := rfl
@[simp] theorem State.setRunning_yr (s : State) (b : Bool) : (s.setRunning b).yr = s.yr := rfl
@[simp] theorem State.setRunning_sp (s : State) (b : Bool) : (s.setRunning b).sp = s.sp := rfl
@[simp] theorem State.setRunning_sr (s : State) (b : Bool) : (s.setRunning b).sr = s.sr := rfl
@[simp] theorem State.setRunning_pc (s : State) (b : Bool) : (s.setRunning b).pc = s.pc := rfl
@[simp] theorem State.setRunning_cycles (s : State) (b : Bool) : (s.setRunning b).cycles = s.cycles := rfl
@[simp] theorem State.setRunning_running (s : State) (b : Bool) : (s.setRunning b).running = b := rfl
@[simp] theorem State.setRunning_mem (s : State) (b : Bool) : (s.setRunning b).mem = s.mem := rfl
@[simp] theorem State.setRunning_handlers (s : State) (b : Bool) : (s.setRunning b).handlers = s.handlers := rfl
@[simp] theorem State.setRunning_draws (s : State) (b : Bool) : (s.setRunning b).draws = s.draws := rfl
@[simp] theorem State.setRunning_cfg (s : State) (b : Bool) : (s.setRunning b).cfg = s.cfg := rfl

/-! ### `setMem` -/

@[simp] theorem State.setMem_ac (s : State) (m : Memory) : (s.setMem m).ac = s.ac := rfl
@[simp] theorem State.setMem_xr (s : State) (m : Memory) : (s.setMem m).xr = s.xr := rfl
@[simp] theorem State.setMem_yr (s : State) (m : Memory) : (s.setMem m).yr = s.yr := rfl
@[simp] theorem State.setMem_sp (s : State) (m : Memory) : (s.setMem m).sp = s.sp := rfl
@[simp] theorem State.setMem_sr (s : State) (m : Memory) : (s.setMem m).sr = s.sr := rfl
@[simp] theorem State.setMem_pc (s : State) (m : Memory) : (s.setMem m).pc = s.pc := rfl
@[simp] theorem State.setMem_cycles (s : State) (m : Memory) : (s.setMem m).cycles = s.cycles := rfl
@[simp] theorem State.setMem_running (s : State) (m : Memory) : (s.setMem m).running = s.running := rfl
@[simp] theorem State.setMem_mem (s : State) (m : Memory) : (s.setMem m).mem = m := rfl
@[simp] theorem State.setMem_handlers (s : State) (m : Memory) : (s.setMem m).handlers = s.handlers := rfl
@[simp] theorem State.setMem_draws (s : State) (m : Memory) : (s.setMem m).draws = s.draws := rfl
@[simp] theorem State.setMem_cfg (s : State) (m : Memory) : (s.setMem m).cfg = s.cfg := rfl

/-! ### `setHandlers` -/

@[simp] theorem State.setHandlers_ac (s : State) (hs : List Handler) : (s.setHandlers hs).ac = s.ac := rfl
@[simp] theorem State.setHandlers_xr (s : State) (hs : List Handler) : (s.setHandlers hs).xr = s.xr := rfl
@[simp] theorem State.setHandlers_yr (s : State) (hs : List Handler) : (s.setHandlers hs).yr = s.yr := rfl
@[simp] theorem State.setHandlers_sp (s : State) (hs : List Handler) : (s.setHandlers hs).sp = s.sp := rfl
@[simp] theorem State.setHandlers_sr (s : State) (hs : List Handler) : (s.setHandlers hs).sr = s.sr := rfl
@[simp] theorem State.setHandlers_pc (s : State) (hs : List Handler) : (s.setHandlers hs).pc = s.pc := rfl
@[simp] theorem State.setHandlers_cycles (s : State) (hs : List Handler) : (s.setHandlers hs).cycles = s.cycles := rfl
@[simp] theorem State.setHandlers_running (s : State) (hs : List Handler) : (s.setHandlers hs).running = s.running := rfl
@[simp] theorem State.setHandlers_mem (s : State) (hs : List Handler) : (s.setHandlers hs).mem = s.mem := rfl
@[simp] theorem State.setHandlers_handlers (s : State) (hs : List Handler) : (s.setHandlers hs).handlers = hs := rfl
@[simp] theorem State.setHandlers_draws (s : State) (hs : List Handler) : (s.setHandlers hs).draws = s.draws := rfl
@[simp] theorem State.setHandlers_cfg (s : State) (hs : List Handler) : (s.setHandlers hs).cfg = s.cfg := rfl

/-! ### `accessed` -/

@[simp] theorem State.accessed_ac (s : State) (n : Nat) : (s.accessed n).ac = s.ac := rfl
@[simp] theorem State.accessed_xr (s : State) (n : Nat) : (s.accessed n).xr = s.xr := rfl
@[simp] theorem State.accessed_yr (s : State) (n : Nat) : (s.accessed n).yr = s.yr := rfl
@[simp] theorem State.accessed_sp (s : State) (n : Nat) : (s.accessed n).sp = s.sp := rfl
@[simp] theorem State.accessed_sr (s : State) (n : Nat) : (s.accessed n).sr = s.sr := rfl
@[simp] theorem State.accessed_pc (s : State) (n : Nat) : (s.accessed n).pc = s.pc := rfl
@[simp] theorem State.accessed_cycles (s : State) (n : Nat) : (s.accessed n).cycles = s.cycles := rfl
@[simp] theorem State.accessed_running (s : State) (n : Nat) : (s.accessed n).running = s.running := rfl
@[simp] theorem State.accessed_mem (s : State) (n : Nat) : (s.accessed n).mem = s.mem := rfl
@[simp] theorem State.accessed_handlers (s : State) (n : Nat) : (s.accessed n).handlers = s.handlers := rfl
@[simp] theorem State.accessed_draws (s : State) (n : Nat) : (s.accessed n).draws = s.draws + n * s.handlers.length := rfl
@[simp] theorem State.accessed_cfg (s : State) (n : Nat) : (s.accessed n).cfg = s.cfg := rfl

/-! ### `setFlag` -/

@[simp] theorem State.setFlag_ac (s : State) (f : Flag) (b : Bool) : (s.setFlag f b).ac = s.ac := rfl
@[simp] theorem State.setFlag_xr (s : State) (f : Flag) (b : Bool) : (s.setFlag f b).xr = s.xr := rfl
@[simp] theorem State.setFlag_yr (s : State) (f : Flag) (b : Bool) : (s.setFlag f b).yr = s.yr := rfl
@[simp] theorem State.setFlag_sp (s : State) (f : Flag) (b : Bool) : (s.setFlag f b).sp = s.sp := rfl
@[simp] theorem State.setFlag_sr (s : State) (f : Flag) (b : Bool) : (s.setFlag f b).sr = putFlag f b s.sr := rfl
@[simp] theorem State.setFlag_pc (s : State) (f : Flag) (b : Bool) : (s.setFlag f b).pc = s.pc := rfl
@[simp] theorem State.setFlag_cycles (s : State) (f : Flag) (b : Bool) : (s.setFlag f b).cycles = s.cycles := rfl
@[simp] theorem State.setFlag_running (s : State) (f : Flag) (b : Bool) : (s.setFlag f b).running = s.running := rfl
@[simp] theorem State.setFlag_mem (s : State) (f : Flag) (b : Bool) : (s.setFlag f b).mem = s.mem := rfl
@[simp] theorem State.setFlag_handlers (s : State) (f : Flag) (b : Bool) : (s.setFlag f b).handlers = s.handlers := rfl
@[simp] theorem State.setFlag_draws (s : State) (f : Flag) (b : Bool) : (s.setFlag f b).draws = s.draws := rfl
@[simp] theorem State.setFlag_cfg (s : State) (f : Flag) (b : Bool) : (s.setFlag f b).cfg = s.cfg := rfl

/-! ### `setZN` -/

@[simp] theorem State.setZN_ac (s : State) (v : Byte) : (s.setZN v).ac = s.ac := rfl
@[simp] theorem State.setZN_xr (s : State) (v : Byte) : (s.setZN v).xr = s.xr := rfl
@[simp] theorem State.setZN_yr (s : State) (v : Byte) : (s.setZN v).yr = s.yr := rfl
@[simp] theorem State.setZN_sp (s : State) (v : Byte) : (s.setZN v).sp = s.sp := rfl
@[simp] theorem State.setZN_sr (s : State) (v : Byte) : (s.setZN v).sr = Machine.setZN v s.sr := rfl
@[simp] theorem State.setZN_pc (s : State) (v : Byte) : (s.setZN v).pc = s.pc := rfl
@[simp] theorem State.setZN_cycles (s : State) (v : Byte) : (s.setZN v).cycles = s.cycles := rfl
@[simp] theorem State.setZN_running (s : State) (v : Byte) : (s.setZN v).running = s.running := rfl
@[simp] theorem State.setZN_mem (s : State) (v : Byte) : (s.setZN v).mem = s.mem := rfl
@[simp] theorem State.setZN_handlers (s : State) (v : Byte) : (s.setZN v).handlers = s.handlers := rfl
@[simp] theorem State.setZN_draws (s : State) (v : Byte) : (s.setZN v).draws = s.draws := rfl
@[simp] theorem State.setZN_cfg (s : State) (v : Byte) : (s.setZN v).cfg = s.cfg := rfl

end Sys2Proof.Machine
end

