-- ==== Sys2Proof/Laws/Flags.lean ====
section
/-! SUPPORT. The laws of the status register and of the flag computations: a flag write writes one bit, the eight flags
are the whole register, and the bit tests of the adders as arithmetic on numbers. -/

namespace Sys2Proof.Machine

/-- A flag write is seen at its own bit only. -/
@[simp] theorem getFlag_putFlag (f g : Flag) (b : Bool) (sr : Byte) :
    getFlag g (putFlag f b sr) = if g = f then b else getFlag g sr := by
  cases f <;> cases g <;> cases b <;> simp [getFlag, putFlag, Flag.mask, Flag.index]

/-- Two status bytes with the same flags are the same. -/
theorem sr_ext {sr sr' : Byte} (h : ∀ f, getFlag f sr = getFlag f sr') : sr = sr' := by
  apply BitVec.eq_of_getLsbD_eq
  intro i hi
  have h0 := h .C; have h1 := h .Z; have h2 := h .I; have h3 := h .D
  have h4 := h .B; have h5 := h .U; have h6 := h .V; have h7 := h .N
  simp only [getFlag, Flag.index] at h0 h1 h2 h3 h4 h5 h6 h7
  match i, hi with
  | 0, _ => exact h0
  | 1, _ => exact h1
  | 2, _ => exact h2
  | 3, _ => exact h3
  | 4, _ => exact h4
  | 5, _ => exact h5
  | 6, _ => exact h6
  | 7, _ => exact h7

@[simp] theorem State.flag_setFlag (s : State) (f g : Flag) (b : Bool) :
    (s.setFlag f b).flag g = if g = f then b else s.flag g :=
  getFlag_putFlag f g b s.sr

/-- A state's flags are those of its status byte. -/
theorem State.flag_eq (s : State) (f : Flag) : s.flag f = getFlag f s.sr := rfl

/-- Bit 7 of a byte is the comparison with 128. -/
theorem getLsbD_seven (v : Byte) : v.getLsbD 7 = decide (128 ≤ v.toNat) := by
  rw [← BitVec.msb_eq_getLsbD_last, BitVec.msb_eq_decide]

/-- `v & 0x0F` as a remainder. -/
theorem and_low_nibble (n : Nat) : n &&& 0x0F = n % 16 :=
  Nat.and_two_pow_sub_one_eq_mod n 4

/-- `v & 0xFF` as a remainder. -/
theorem and_byte (n : Nat) : n &&& 0xFF = n % 256 :=
  Nat.and_two_pow_sub_one_eq_mod n 8

/-- `v & 0x80` is not 0 exactly when bit 7 is 1. -/
theorem and_bit_seven (n : Nat) : ((n &&& 0x80) != 0) = decide (n / 128 % 2 = 1) := by
  have h : n &&& 2 ^ 7 = (n.testBit 7).toNat * 2 ^ 7 := Nat.and_two_pow n 7
  have ht : n.testBit 7 = decide (n / 128 % 2 = 1) := by
    simp [Nat.testBit_eq_decide_div_mod_eq]
  rw [show (0x80 : Nat) = 2 ^ 7 from rfl, h, ht]
  by_cases hb : n / 128 % 2 = 1 <;> simp [hb]

/-- `v & 0xF0` of a number is its second nibble times 16. -/
theorem and_high_nibble (n : Nat) : n &&& 0xF0 = 16 * (n / 16 % 16) := by
  have h : n &&& 0xF0 = (n >>> 4 &&& 0x0F) <<< 4 := by
    apply Nat.eq_of_testBit_eq
    intro i
    rw [show (0xF0 : Nat) = 0x0F <<< 4 from rfl]
    simp only [Nat.testBit_and, Nat.testBit_shiftLeft, Nat.testBit_shiftRight]
    by_cases hi : 4 ≤ i
    · simp [hi, show 4 + (i - 4) = i by omega]
    · simp [hi]
  rw [h, and_low_nibble, Nat.shiftLeft_eq, Nat.shiftRight_eq_div_pow]
  omega

/-- The overflow test as arithmetic: bits 7 of `a` and `m` agree and bit 7 of `x` differs from them. -/
theorem overflow_eq (a m x : Nat) : overflow a m x =
    decide (a / 128 % 2 = m / 128 % 2 ∧ a / 128 % 2 ≠ x / 128 % 2) := by
  have hx : ∀ p q : Nat, ((p ^^^ q) &&& 0x80 != 0) = decide (p / 128 % 2 ≠ q / 128 % 2) := by
    intro p q
    rw [and_bit_seven]
    have ht : ∀ n : Nat, n.testBit 7 = decide (n / 128 % 2 = 1) := by
      intro n; simp [Nat.testBit_eq_decide_div_mod_eq]
    have hxor := Nat.testBit_xor p q 7
    rw [ht, ht, ht] at hxor
    rw [hxor]
    have hp : p / 128 % 2 = 0 ∨ p / 128 % 2 = 1 := by omega
    have hq : q / 128 % 2 = 0 ∨ q / 128 % 2 = 1 := by omega
    rcases hp with hp | hp <;> rcases hq with hq | hq <;> simp [hp, hq]
  have hz : ((a ^^^ m) &&& 0x80 == 0) = !((a ^^^ m) &&& 0x80 != 0) := by simp [bne]
  unfold overflow
  rw [hz, hx, hx]
  by_cases h1 : a / 128 % 2 = m / 128 % 2 <;> simp [h1]

/-- Disjoint nibbles are OR-ed by adding. -/
theorem or_nibbles {h l : Nat} (hl : l < 16) : (16 * h) ||| l = 16 * h + l := by
  rw [show 16 * h = h <<< 4 by rw [Nat.shiftLeft_eq]; omega]
  exact (Nat.shiftLeft_add_eq_or_of_lt (by simpa using hl) h).symm

end Sys2Proof.Machine
end

