-- ==== Sys2Proof/Laws/Memory.lean ====
section
/-! SUPPORT. The laws of the backing store: a write reads back, leaves every other cell alone and keeps the canonical
form; the canonical form is canonical. -/

namespace Sys2Proof.Machine

@[simp] theorem Memory.read_nil (a : Nat) : Memory.read [] a = Memory.unlisted := rfl

theorem Memory.wfFrom_cons {lo a : Nat} {v : Byte} {m : Memory} :
    Memory.wfFrom lo ((a, v) :: m) = true ↔
      lo ≤ a ∧ a < 65536 ∧ v ≠ Memory.unlisted ∧ Memory.wfFrom (a + 1) m = true := by
  simp only [Memory.wfFrom, Bool.and_eq_true, decide_eq_true_eq, and_assoc]

/-- Cells below the first listed address read as unlisted. -/
theorem Memory.read_below {m : Memory} : ∀ {lo a : Nat}, Memory.wfFrom lo m = true → a < lo →
    Memory.read m a = Memory.unlisted := by
  induction m with
  | nil => intro lo a _ _; rfl
  | cons c m ih =>
    obtain ⟨b, w⟩ := c
    intro lo a h hlt
    obtain ⟨hle, -, -, hm⟩ := Memory.wfFrom_cons.1 h
    have hne : a ≠ b := by omega
    simp only [Memory.read, if_neg hne]
    exact ih hm (by omega)

/-- A write leaves every other cell alone, in any memory. -/
theorem Memory.read_write_ne {a b : Nat} {v : Byte} (h : b ≠ a) (m : Memory) :
    Memory.read (Memory.write m a v) b = Memory.read m b := by
  induction m with
  | nil =>
    unfold Memory.write
    split
    · rfl
    · simp [Memory.read, h]
  | cons c m ih =>
    obtain ⟨x, w⟩ := c
    unfold Memory.write
    split
    · split
      · rfl
      · simp [Memory.read, h]
    · split
      · rename_i _ hax
        have hbx : b ≠ x := hax ▸ h
        split
        · simp [Memory.read, hbx]
        · simp [Memory.read, h, hbx]
      · simp only [Memory.read, ih]

/-- In canonical memory a written cell reads back. -/
theorem Memory.read_write_eq {m : Memory} : ∀ {lo a : Nat} {v : Byte}, Memory.wfFrom lo m = true →
    Memory.read (Memory.write m a v) a = v := by
  induction m with
  | nil =>
    intro lo a v _
    unfold Memory.write
    split
    · rename_i hv; rw [hv]; rfl
    · simp [Memory.read]
  | cons c m ih =>
    obtain ⟨x, w⟩ := c
    intro lo a v h
    obtain ⟨-, -, -, hm⟩ := Memory.wfFrom_cons.1 h
    unfold Memory.write
    split
    · rename_i hlt
      split
      · rename_i hv
        have hne : a ≠ x := by omega
        simp only [Memory.read, if_neg hne, hv]
        exact Memory.read_below hm (by omega)
      · simp [Memory.read]
    · split
      · rename_i _ hax
        split
        · rename_i hv
          rw [hv]
          exact Memory.read_below hm (by omega)
        · simp [Memory.read]
      · rename_i _ hne
        simp only [Memory.read, if_neg hne]
        exact ih hm

/-- A lower bound on the addresses may be lowered. -/
theorem Memory.wfFrom_mono {m : Memory} {lo lo' : Nat} (hle : lo' ≤ lo) (h : Memory.wfFrom lo m = true) :
    Memory.wfFrom lo' m = true := by
  cases m with
  | nil => rfl
  | cons c m =>
    obtain ⟨a, v⟩ := c
    obtain ⟨h1, h2, h3, h4⟩ := Memory.wfFrom_cons.1 h
    exact Memory.wfFrom_cons.2 ⟨by omega, h2, h3, h4⟩

/-- A write keeps the canonical form. -/
theorem Memory.wfFrom_write {m : Memory} : ∀ {lo a : Nat} {v : Byte}, Memory.wfFrom lo m = true → lo ≤ a →
    a < 65536 → Memory.wfFrom lo (Memory.write m a v) = true := by
  induction m with
  | nil =>
    intro lo a v _ hlo ha
    unfold Memory.write
    split
    · rfl
    · rename_i hv; exact Memory.wfFrom_cons.2 ⟨hlo, ha, hv, rfl⟩
  | cons c m ih =>
    obtain ⟨x, w⟩ := c
    intro lo a v h hlo ha
    obtain ⟨h1, h2, h3, h4⟩ := Memory.wfFrom_cons.1 h
    unfold Memory.write
    split
    · rename_i hlt
      split
      · exact h
      · rename_i hv
        exact Memory.wfFrom_cons.2 ⟨hlo, ha, hv, Memory.wfFrom_cons.2 ⟨by omega, h2, h3, h4⟩⟩
    · split
      · rename_i _ hax
        split
        · exact Memory.wfFrom_mono (by omega) h4
        · rename_i hv
          exact Memory.wfFrom_cons.2 ⟨hlo, ha, hv, hax ▸ h4⟩
      · exact Memory.wfFrom_cons.2 ⟨h1, h2, h3, ih h4 (by omega) ha⟩

/-- A bus-sized write keeps the canonical form. -/
theorem Memory.wf_write {m : Memory} (h : m.wf = true) (a : Word) (v : Byte) : (m.write a.toNat v).wf = true :=
  Memory.wfFrom_write h (Nat.zero_le _) a.isLt

/-- In canonical memory a bus-sized write reads back. -/
theorem Memory.read_write_self {m : Memory} (h : m.wf = true) (a : Word) (v : Byte) :
    (m.write a.toNat v).read a.toNat = v :=
  Memory.read_write_eq h

/-- A bus-sized write leaves every other cell alone. -/
theorem Memory.read_write_other {a b : Word} (h : b ≠ a) (m : Memory) (v : Byte) :
    (m.write a.toNat v).read b.toNat = m.read b.toNat :=
  Memory.read_write_ne (fun e => h (BitVec.eq_of_toNat_eq e)) m

/-- Canonical memories that read the same everywhere are the same list. -/
theorem Memory.ext_of_wf : ∀ {m m' : Memory} {lo : Nat}, Memory.wfFrom lo m = true → Memory.wfFrom lo m' = true →
    (∀ a, a < 65536 → m.read a = m'.read a) → m = m' := by
  intro m
  induction m with
  | nil =>
    intro m' lo _ h' hread
    cases m' with
    | nil => rfl
    | cons c m' =>
      obtain ⟨b, w⟩ := c
      obtain ⟨_, hb, hw, _⟩ := Memory.wfFrom_cons.1 h'
      have := hread b hb
      simp [Memory.read] at this
      exact absurd this.symm hw
  | cons c m ih =>
    obtain ⟨a, v⟩ := c
    intro m' lo h h' hread
    obtain ⟨_, ha, hv, hm⟩ := Memory.wfFrom_cons.1 h
    cases m' with
    | nil =>
      have := hread a ha
      simp [Memory.read] at this
      exact absurd this hv
    | cons c' m' =>
      obtain ⟨b, w⟩ := c'
      obtain ⟨_, hb, hw, hm'⟩ := Memory.wfFrom_cons.1 h'
      have hab : a = b := by
        by_contra hne
        rcases Nat.lt_or_gt_of_ne hne with hlt | hgt
        · have h1 := hread a ha
          simp only [Memory.read, if_pos, if_neg hne] at h1
          exact hv (h1.trans (Memory.read_below hm' (by omega)))
        · have h1 := hread b hb
          simp only [Memory.read, if_pos, if_neg (Ne.symm hne)] at h1
          exact hw (h1.symm.trans (Memory.read_below hm (by omega)))
      subst hab
      have hvw : v = w := by simpa [Memory.read] using hread a ha
      subst hvw
      have hrest : m = m' := by
        refine ih hm hm' fun x hx => ?_
        by_cases hxa : x = a
        · subst hxa
          rw [Memory.read_below hm (by omega), Memory.read_below hm' (by omega)]
        · simpa [Memory.read, hxa] using hread x hx
      rw [hrest]

/-- The reset state's memory is canonical in form: it lists nothing. -/
theorem Memory.wf_nil : Memory.wf [] = true := rfl

end Sys2Proof.Machine
end

