-- ==== Sys2Proof/Laws/Bus.lean ====
section
/-! SUPPORT. The laws of the bus, the intercept chain and the stack engine: what an access depends on, what a bus write
and a push can do, that they keep the canonical form of memory. -/

namespace Sys2Proof.Machine

/-! ### Bytes and words -/

theorem joinBytes_toNat (hi lo : Byte) : (joinBytes hi lo).toNat = 256 * hi.toNat + lo.toNat := by
  have h : (joinBytes hi lo).toNat = hi.toNat <<< 8 ||| lo.toNat := BitVec.toNat_append hi lo
  rw [h, ← Nat.shiftLeft_add_eq_or_of_lt lo.isLt, Nat.shiftLeft_eq]
  omega

theorem lowByte_toNat (w : Word) : (lowByte w).toNat = w.toNat % 256 := by
  simp [lowByte]

theorem highByte_toNat (w : Word) : (highByte w).toNat = w.toNat / 256 := by
  have := w.isLt
  simp [highByte, Nat.shiftRight_eq_div_pow]
  omega

@[simp] theorem joinBytes_high_low (w : Word) : joinBytes (highByte w) (lowByte w) = w := by
  apply BitVec.eq_of_toNat_eq
  rw [joinBytes_toNat, lowByte_toNat, highByte_toNat]
  omega

@[simp] theorem lowByte_joinBytes (hi lo : Byte) : lowByte (joinBytes hi lo) = lo := by
  apply BitVec.eq_of_toNat_eq
  rw [lowByte_toNat, joinBytes_toNat]
  have := lo.isLt
  omega

@[simp] theorem highByte_joinBytes (hi lo : Byte) : highByte (joinBytes hi lo) = hi := by
  apply BitVec.eq_of_toNat_eq
  rw [highByte_toNat, joinBytes_toNat]
  have := lo.isLt
  omega

/-! ### Accesses -/

@[simp] theorem State.accessed_zero (s : State) : s.accessed 0 = s := by
  simp [State.accessed]

@[simp] theorem State.accessed_accessed (s : State) (m n : Nat) : (s.accessed m).accessed n = s.accessed (m + n) := by
  simp [State.accessed, Nat.add_mul, Nat.add_assoc]

@[simp] theorem State.flag_accessed (s : State) (n : Nat) (f : Flag) : (s.accessed n).flag f = s.flag f := rfl

@[simp] theorem State.reg_accessed (s : State) (n : Nat) (r : Reg) : (s.accessed n).reg r = s.reg r := by
  cases r <;> rfl

@[simp] theorem State.busRead_fst (s : State) (a : Word) : (s.busRead a).1 = s.peek a := rfl

@[simp] theorem State.busRead_snd (s : State) (a : Word) : (s.busRead a).2 = s.accessed 1 := rfl

/-- What a bus write can do: one access, and the store unless intercepted. -/
theorem State.busWrite_eq (s : State) (a : Word) (v : Byte) : s.busWrite a v =
    (s.accessed 1).setMem (if s.intercepts a v then s.mem else s.mem.write a.toNat v) := by
  unfold State.busWrite
  split <;> rfl

@[simp] theorem State.busWrite_ac (s : State) (a : Word) (v : Byte) : (s.busWrite a v).ac = s.ac := by
  simp [State.busWrite_eq]

@[simp] theorem State.busWrite_xr (s : State) (a : Word) (v : Byte) : (s.busWrite a v).xr = s.xr := by
  simp [State.busWrite_eq]

@[simp] theorem State.busWrite_yr (s : State) (a : Word) (v : Byte) : (s.busWrite a v).yr = s.yr := by
  simp [State.busWrite_eq]

@[simp] theorem State.busWrite_sp (s : State) (a : Word) (v : Byte) : (s.busWrite a v).sp = s.sp := by
  simp [State.busWrite_eq]

@[simp] theorem State.busWrite_sr (s : State) (a : Word) (v : Byte) : (s.busWrite a v).sr = s.sr := by
  simp [State.busWrite_eq]

@[simp] theorem State.busWrite_pc (s : State) (a : Word) (v : Byte) : (s.busWrite a v).pc = s.pc := by
  simp [State.busWrite_eq]

@[simp] theorem State.busWrite_cycles (s : State) (a : Word) (v : Byte) : (s.busWrite a v).cycles = s.cycles := by
  simp [State.busWrite_eq]

@[simp] theorem State.busWrite_running (s : State) (a : Word) (v : Byte) : (s.busWrite a v).running = s.running := by
  simp [State.busWrite_eq]

@[simp] theorem State.busWrite_handlers (s : State) (a : Word) (v : Byte) : (s.busWrite a v).handlers = s.handlers := by
  simp [State.busWrite_eq]

@[simp] theorem State.busWrite_cfg (s : State) (a : Word) (v : Byte) : (s.busWrite a v).cfg = s.cfg := by
  simp [State.busWrite_eq]

@[simp] theorem State.busWrite_draws (s : State) (a : Word) (v : Byte) :
    (s.busWrite a v).draws = s.draws + 1 * s.handlers.length := by
  simp [State.busWrite_eq]

theorem State.busWrite_mem (s : State) (a : Word) (v : Byte) :
    (s.busWrite a v).mem = if s.intercepts a v then s.mem else s.mem.write a.toNat v := by
  simp [State.busWrite_eq]

/-- A bus write keeps the canonical form. -/
theorem State.busWrite_inv {s : State} (h : s.Inv) (a : Word) (v : Byte) : (s.busWrite a v).Inv := by
  unfold State.Inv at *
  rw [State.busWrite_mem]
  split
  · exact h
  · exact Memory.wf_write h a v

/-- A bus write leaves every other cell alone. -/
theorem State.busWrite_read_other (s : State) {a b : Word} (v : Byte) (h : b ≠ a) :
    (s.busWrite a v).mem.read b.toNat = s.mem.read b.toNat := by
  rw [State.busWrite_mem]
  split
  · rfl
  · exact Memory.read_write_other h _ _

/-- In canonical memory the written cell holds the byte, or what it held when the write is intercepted. -/
theorem State.busWrite_read_self {s : State} (h : s.Inv) (a : Word) (v : Byte) :
    (s.busWrite a v).mem.read a.toNat = s.written 0 a v := by
  rw [State.busWrite_mem]
  simp only [State.written, State.accessed_zero]
  split
  · rfl
  · exact Memory.read_write_self h a v

/-! ### What an access depends on: the chain, the draw counter and memory only -/

/-- A peek depends on the chain, the counter and the cell. -/
theorem State.peek_congr {s t : State} {a : Word} (hh : s.handlers = t.handlers) (hd : s.draws = t.draws)
    (hm : s.mem.read a.toNat = t.mem.read a.toNat) : s.peek a = t.peek a := by
  simp only [State.peek, hh, hd, hm]

/-- An address no handler answers is plain memory. -/
theorem State.peek_unintercepted {s : State} {a : Word} (h : s.Unintercepted a) : s.peek a = s.mem.read a.toNat := by
  simp only [State.peek, (h s.draws).1]

theorem State.intercepts_unintercepted {s : State} {a : Word} (h : s.Unintercepted a) (v : Byte) :
    s.intercepts a v = false :=
  (h s.draws).2 v

/-- With an empty chain every address is plain memory (R51). -/
theorem State.unintercepted_of_empty {s : State} (h : s.handlers = []) (a : Word) : s.Unintercepted a := by
  intro d
  rw [h]
  exact ⟨rfl, fun _ => rfl⟩

@[simp] theorem State.peek_setAc (s : State) (v : Byte) (x : Word) : (s.setAc v).peek x = s.peek x := rfl
@[simp] theorem State.intercepts_setAc (s : State) (v : Byte) (x : Word) (y : Byte) :
    (s.setAc v).intercepts x y = s.intercepts x y := rfl
@[simp] theorem State.accessed_setAc (s : State) (v : Byte) (n : Nat) :
    (s.setAc v).accessed n = (s.accessed n).setAc v := rfl

@[simp] theorem State.peek_setXr (s : State) (v : Byte) (x : Word) : (s.setXr v).peek x = s.peek x := rfl
@[simp] theorem State.intercepts_setXr (s : State) (v : Byte) (x : Word) (y : Byte) :
    (s.setXr v).intercepts x y = s.intercepts x y := rfl
@[simp] theorem State.accessed_setXr (s : State) (v : Byte) (n : Nat) :
    (s.setXr v).accessed n = (s.accessed n).setXr v := rfl

@[simp] theorem State.peek_setYr (s : State) (v : Byte) (x : Word) : (s.setYr v).peek x = s.peek x := rfl
@[simp] theorem State.intercepts_setYr (s : State) (v : Byte) (x : Word) (y : Byte) :
    (s.setYr v).intercepts x y = s.intercepts x y := rfl
@[simp] theorem State.accessed_setYr (s : State) (v : Byte) (n : Nat) :
    (s.setYr v).accessed n = (s.accessed n).setYr v := rfl

@[simp] theorem State.peek_setSp (s : State) (v : Byte) (x : Word) : (s.setSp v).peek x = s.peek x := rfl
@[simp] theorem State.intercepts_setSp (s : State) (v : Byte) (x : Word) (y : Byte) :
    (s.setSp v).intercepts x y = s.intercepts x y := rfl
@[simp] theorem State.accessed_setSp (s : State) (v : Byte) (n : Nat) :
    (s.setSp v).accessed n = (s.accessed n).setSp v := rfl

@[simp] theorem State.peek_setSr (s : State) (v : Byte) (x : Word) : (s.setSr v).peek x = s.peek x := rfl
@[simp] theorem State.intercepts_setSr (s : State) (v : Byte) (x : Word) (y : Byte) :
    (s.setSr v).intercepts x y = s.intercepts x y := rfl
@[simp] theorem State.accessed_setSr (s : State) (v : Byte) (n : Nat) :
    (s.setSr v).accessed n = (s.accessed n).setSr v := rfl

@[simp] theorem State.peek_setPc (s : State) (w : Word) (x : Word) : (s.setPc w).peek x = s.peek x := rfl
@[simp] theorem State.intercepts_setPc (s : State) (w : Word) (x : Word) (y : Byte) :
    (s.setPc w).intercepts x y = s.intercepts x y := rfl
@[simp] theorem State.accessed_setPc (s : State) (w : Word) (n : Nat) :
    (s.setPc w).accessed n = (s.accessed n).setPc w := rfl

@[simp] theorem State.peek_addCycles (s : State) (k : Nat) (x : Word) : (s.addCycles k).peek x = s.peek x := rfl
@[simp] theorem State.intercepts_addCycles (s : State) (k : Nat) (x : Word) (y : Byte) :
    (s.addCycles k).intercepts x y = s.intercepts x y := rfl
@[simp] theorem State.accessed_addCycles (s : State) (k : Nat) (n : Nat) :
    (s.addCycles k).accessed n = (s.accessed n).addCycles k := rfl

@[simp] theorem State.peek_setRunning (s : State) (b : Bool) (x : Word) : (s.setRunning b).peek x = s.peek x := rfl
@[simp] theorem State.intercepts_setRunning (s : State) (b : Bool) (x : Word) (y : Byte) :
    (s.setRunning b).intercepts x y = s.intercepts x y := rfl
@[simp] theorem State.accessed_setRunning (s : State) (b : Bool) (n : Nat) :
    (s.setRunning b).accessed n = (s.accessed n).setRunning b := rfl

@[simp] theorem State.peek_setFlag (s : State) (f : Flag) (b : Bool) (x : Word) : (s.setFlag f b).peek x = s.peek x := rfl
@[simp] theorem State.intercepts_setFlag (s : State) (f : Flag) (b : Bool) (x : Word) (y : Byte) :
    (s.setFlag f b).intercepts x y = s.intercepts x y := rfl
@[simp] theorem State.accessed_setFlag (s : State) (f : Flag) (b : Bool) (n : Nat) :
    (s.setFlag f b).accessed n = (s.accessed n).setFlag f b := rfl

@[simp] theorem State.peek_setZN (s : State) (v : Byte) (x : Word) : (s.setZN v).peek x = s.peek x := rfl
@[simp] theorem State.intercepts_setZN (s : State) (v : Byte) (x : Word) (y : Byte) :
    (s.setZN v).intercepts x y = s.intercepts x y := rfl
@[simp] theorem State.accessed_setZN (s : State) (v : Byte) (n : Nat) :
    (s.setZN v).accessed n = (s.accessed n).setZN v := rfl

/-! ### The stack engine -/

theorem stackAddr_toNat (sp : Byte) : (stackAddr sp).toNat = 256 + sp.toNat := by
  have := sp.isLt
  simp [stackAddr]
  omega

theorem stackAddr_inj {p q : Byte} : stackAddr p = stackAddr q ↔ p = q := by
  constructor
  · intro h
    have := congrArg BitVec.toNat h
    rw [stackAddr_toNat, stackAddr_toNat] at this
    exact BitVec.eq_of_toNat_eq (by omega)
  · exact congrArg stackAddr

/-- What a push can do (R170). -/
theorem State.push_eq (s : State) (v : Byte) :
    s.push v = (s.busWrite (stackAddr s.sp) v).setSp (s.sp - 1) := by
  simp [State.push]

/-- What a pop reads and leaves (R171). -/
theorem State.pop_eq (s : State) :
    s.pop = (s.peek (stackAddr (s.sp + 1)), (s.accessed 1).setSp (s.sp + 1)) := by
  simp [State.pop, State.busRead]

/-- What a word push can do (R172). -/
theorem State.pushWord_eq (s : State) (w : Word) : s.pushWord w =
    (((s.busWrite (stackAddr s.sp) (highByte w)).setSp (s.sp - 1)).busWrite (stackAddr (s.sp - 1))
      (lowByte w)).setSp (s.sp - 1 - 1) := by
  simp [State.pushWord, State.push_eq]

/-- What a word pop reads and leaves (R173). -/
theorem State.popWord_eq (s : State) : s.popWord =
    (joinBytes ((s.accessed 1).peek (stackAddr (s.sp + 1 + 1))) (s.peek (stackAddr (s.sp + 1))),
      (s.accessed 2).setSp (s.sp + 1 + 1)) := by
  simp only [State.popWord, State.pop_eq]
  simp
  rfl

/-- A push keeps the canonical form. -/
theorem State.push_inv {s : State} (h : s.Inv) (v : Byte) : (s.push v).Inv := by
  rw [State.push_eq]
  exact State.busWrite_inv h _ _

theorem State.pushWord_inv {s : State} (h : s.Inv) (w : Word) : (s.pushWord w).Inv :=
  State.push_inv (State.push_inv h _) _

/-! ### The trap -/

/-- The state in which BRK reads its vector: I and B set, the return address and the status pushed (R204, R247). -/
def State.trapped (s : State) : State :=
  (((s.setFlag .I true).setFlag .B true).pushWord (s.pc + 1)).push ((s.setFlag .I true).setFlag .B true).sr

/-- What trap entry does (R247). -/
theorem State.takeTrap_eq (s : State) : s.takeTrap =
    (s.trapped.accessed 2).setPc (joinBytes ((s.trapped.accessed 1).peek 0xFFFF) (s.trapped.peek 0xFFFE)) := by
  have hsr : (((s.setFlag .I true).setFlag .B true).pushWord (s.pc + 1)).sr = ((s.setFlag .I true).setFlag .B true).sr := by
    simp [State.pushWord_eq]
  simp only [State.takeTrap, State.setFlag_pc, hsr, State.busReadWord, State.busRead, State.accessed_accessed]
  rfl

/-- What trap return does (R248). -/
theorem State.returnFromTrap_eq (s : State) : s.returnFromTrap =
    (((s.accessed 3).setSp (s.sp + 1 + 1 + 1)).setSr (s.peek (stackAddr (s.sp + 1)))).setPc
      (joinBytes ((s.accessed 2).peek (stackAddr (s.sp + 1 + 1 + 1))) ((s.accessed 1).peek (stackAddr (s.sp + 1 + 1)))) := by
  simp only [State.returnFromTrap, State.popWord_eq, State.pop_eq, State.setSr_sp, State.setSp_sp, State.accessed_setSr,
    State.accessed_setSp, State.accessed_accessed, State.peek_setSr, State.peek_setSp]
  rfl

theorem State.trapped_inv {s : State} (h : s.Inv) : s.trapped.Inv :=
  State.push_inv (State.pushWord_inv (s := (s.setFlag .I true).setFlag .B true) h _) _

/-- Both bytes of a word write keep the canonical form. -/
theorem State.busWriteWord_inv {s : State} (h : s.Inv) (a w : Word) : (s.busWriteWord a w).Inv :=
  State.busWrite_inv (State.busWrite_inv h _ _) _ _

/-! ### Frames and reports -/

theorem Frame.refl (s : State) : Frame [] [] s s :=
  ⟨fun _ _ => rfl, fun _ _ => rfl, rfl, rfl, rfl, rfl⟩

/-- Two changes in a row stay within the same registers and flags. -/
theorem Frame.trans {rs : List Reg} {fs : List Flag} {s t u : State} (h : Frame rs fs s t) (k : Frame rs fs t u) :
    Frame rs fs s u :=
  ⟨fun r hr => (k.regs r hr).trans (h.regs r hr), fun f hf => (k.flags f hf).trans (h.flags f hf),
    k.cycles.trans h.cycles, k.running.trans h.running, k.handlers.trans h.handlers, k.cfg.trans h.cfg⟩

/-- A frame may name more registers and flags. -/
theorem Frame.mono {rs rs' : List Reg} {fs fs' : List Flag} {s t : State} (h : Frame rs fs s t)
    (hr : ∀ r ∈ rs, r ∈ rs') (hf : ∀ f ∈ fs, f ∈ fs') : Frame rs' fs' s t :=
  ⟨fun r hn => h.regs r fun hm => hn (hr r hm), fun f hn => h.flags f fun hm => hn (hf f hm),
    h.cycles, h.running, h.handlers, h.cfg⟩

/-- Accesses change no register and no flag. -/
theorem State.accessed_frame (s : State) (n : Nat) : Frame [] [] s (s.accessed n) :=
  ⟨fun r _ => by cases r <;> rfl, fun _ _ => rfl, rfl, rfl, rfl, rfl⟩

/-- A bus write changes no register and no flag. -/
theorem State.busWrite_frame (s : State) (a : Word) (v : Byte) : Frame [] [] s (s.busWrite a v) :=
  ⟨fun r _ => by cases r <;> simp [State.reg], fun f _ => by simp [State.flag], by simp, by simp, by simp, by simp⟩

/-- A push changes SP only. -/
theorem State.push_frame (s : State) (v : Byte) : Frame [.sp] [] s (s.push v) := by
  rw [State.push_eq]
  exact ⟨fun r hr => by cases r <;> simp_all [State.reg], fun f _ => by simp [State.flag], by simp, by simp, by simp,
    by simp⟩

/-- After `SetZN(v)`, Z and N report `v`. -/
theorem State.setZN_reports (s : State) (v : Byte) : ZNReport v (s.setZN v) := by
  refine ⟨?_, ?_⟩
  · have : (v == 0) = decide (v.toNat = 0) := by
      rw [Bool.eq_iff_iff, beq_iff_eq, decide_eq_true_eq]
      exact ⟨fun h => h ▸ rfl, fun h => BitVec.eq_of_toNat_eq h⟩
    rw [← this]
    simp [State.flag, State.setZN, Machine.setZN, getFlag_putFlag]
  · rw [← getLsbD_seven]
    simp [State.flag, State.setZN, Machine.setZN, getFlag_putFlag]

/-- `SetZN` writes no other flag. -/
theorem State.flag_setZN {f : Flag} (hz : f ≠ .Z) (hn : f ≠ .N) (s : State) (v : Byte) :
    (s.setZN v).flag f = s.flag f := by
  simp [State.flag, State.setZN, Machine.setZN, getFlag_putFlag, hz, hn]

/-- A write no handler can intercept lands. -/
theorem State.written_unintercepted {s : State} {a : Word} (h : s.Unintercepted a) (k : Nat) (v : Byte) :
    s.written k a v = v := by
  have hi : (s.accessed k).intercepts a v = false := (h _).2 v
  simp [State.written, hi]

end Sys2Proof.Machine
end

