-- ==== Sys2Proof/Laws/Operands.lean ====
section
/-! SUPPORT. What the resolver and the shared ways of using it can do (spec/40_addressing.md R90, R106): resolving moves
nothing but the free-value counter, and fails only for a zero-page index sum that faults. -/

namespace Sys2Proof.Machine

theorem zpWord_snd (p : Byte) (s : State) : (zpWord p s).2 = s.accessed 2 := by
  simp [zpWord, State.busRead]

theorem indirectWord_snd (p : Word) (s : State) : (indirectWord p s).2 = s.accessed 2 := by
  simp [indirectWord, State.busRead]

/-- What `zpIndexed` can answer (R95, R96). -/
theorem zpIndexed_cases (b i : Byte) (s : State) :
    (0xFF < b.toNat + i.toNat ∧ s.cfg.zpIndexOverflow = .fault ∧
      zpIndexed b i s = .error (.addressRangeViolation (b.toNat + i.toNat) s)) ∨
    (¬ (0xFF < b.toNat + i.toNat ∧ s.cfg.zpIndexOverflow = .fault) ∧ ∃ a, zpIndexed b i s = .ok (a, s)) := by
  unfold zpIndexed
  by_cases h : 0xFF < b.toNat + i.toNat
  · cases hz : s.cfg.zpIndexOverflow with
    | fault => left; simp [h]
    | wrap => right; simp [h]
  · right; simp [h]

/-- What resolving can answer (R90, R106). -/
theorem Operand.ea_cases (o : Operand) (s : State) :
    (0xFF < o.indexSum s ∧ s.cfg.zpIndexOverflow = .fault ∧
      o.ea s = .error (.addressRangeViolation (o.indexSum s) s)) ∨
    (¬ (0xFF < o.indexSum s ∧ s.cfg.zpIndexOverflow = .fault) ∧ ∃ a n, o.ea s = .ok (a, s.accessed n)) := by
  have zero : ∀ {a : Word}, (Except.ok (a, s) : Except Fault (Word × State)) = .ok (a, s.accessed 0) := by
    intro a; rw [State.accessed_zero]
  cases o with
  | zpx b =>
    rcases zpIndexed_cases b s.xr s with h | ⟨h, a, ha⟩
    · exact .inl h
    · exact .inr ⟨h, a, 0, ha.trans zero⟩
  | zpy b =>
    rcases zpIndexed_cases b s.yr s with h | ⟨h, a, ha⟩
    · exact .inl h
    · exact .inr ⟨h, a, 0, ha.trans zero⟩
  | imm b => exact .inr ⟨by simp [Operand.indexSum], _, 0, zero⟩
  | zp b => exact .inr ⟨by simp [Operand.indexSum], _, 0, zero⟩
  | abs w => exact .inr ⟨by simp [Operand.indexSum], _, 0, zero⟩
  | abx w => exact .inr ⟨by simp [Operand.indexSum], _, 0, zero⟩
  | aby w => exact .inr ⟨by simp [Operand.indexSum], _, 0, zero⟩
  | rel b => exact .inr ⟨by simp [Operand.indexSum], _, 0, zero⟩
  | ind w => exact .inr ⟨by simp [Operand.indexSum], _, 2, by
      rw [← indirectWord_snd w s]; rfl⟩
  | izx b => exact .inr ⟨by simp [Operand.indexSum], _, 2, by
      rw [← zpWord_snd (b + s.xr) s]; rfl⟩
  | izy b => exact .inr ⟨by simp [Operand.indexSum], _, 2, by
      rw [← zpWord_snd b s]; rfl⟩

/-- Resolving moves nothing but the free-value counter. -/
theorem Operand.ea_ok {o : Operand} {s u : State} {a : Word} (h : o.ea s = .ok (a, u)) : ∃ n, u = s.accessed n := by
  rcases o.ea_cases s with ⟨_, _, he⟩ | ⟨_, a', n, he⟩
  · rw [he] at h; cases h
  · rw [he] at h; cases h; exact ⟨n, rfl⟩

/-- The immediate operand is read without an access; every other through one access of its address. -/
theorem Operand.read_eq (o : Operand) (s : State) : o.read s =
    match o, o.ea s with
    | .imm b, _ => .ok (b, s)
    | _, .error f => .error f
    | _, .ok (a, u) => .ok (u.peek a, u.accessed 1) := by
  cases o <;> first | rfl | (simp only [Operand.read]; cases Operand.ea _ s <;> rfl)

/-- What reading an operand can answer. -/
theorem Operand.read_cases (o : Operand) (s : State) :
    (0xFF < o.indexSum s ∧ s.cfg.zpIndexOverflow = .fault ∧
      o.read s = .error (.addressRangeViolation (o.indexSum s) s)) ∨
    (¬ (0xFF < o.indexSum s ∧ s.cfg.zpIndexOverflow = .fault) ∧ ∃ v n, o.read s = .ok (v, s.accessed n)) := by
  rcases o.ea_cases s with ⟨h1, h2, he⟩ | ⟨h, a, n, he⟩
  · left
    refine ⟨h1, h2, ?_⟩
    rw [Operand.read_eq, he]
    cases o <;> first | rfl | (simp [Operand.indexSum] at h1)
  · right
    refine ⟨h, ?_⟩
    rw [Operand.read_eq, he]
    cases o with
    | imm b => exact ⟨b, 0, by rw [State.accessed_zero]⟩
    | _ => exact ⟨_, n + 1, by rw [← State.accessed_accessed]⟩

/-- Reading an operand moves nothing but the free-value counter. -/
theorem Operand.read_ok {o : Operand} {s u : State} {v : Byte} (h : o.read s = .ok (v, u)) :
    ∃ n, u = s.accessed n := by
  rcases o.read_cases s with ⟨_, _, he⟩ | ⟨_, v', n, he⟩
  · rw [he] at h; cases h
  · rw [he] at h; cases h; exact ⟨n, rfl⟩

theorem readThen_ok {o : Operand} {s u : State} {v : Byte} (h : o.read s = .ok (v, u))
    (k : Byte → State → State) : readThen o s k = .next (k v u) := by
  simp [readThen, h]

theorem readThen_error {o : Operand} {s : State} {f : Fault} (h : o.read s = .error f)
    (k : Byte → State → State) : readThen o s k = .fault f := by
  simp [readThen, h]

theorem addressThen_ok {o : Operand} {s u : State} {a : Word} (h : o.ea s = .ok (a, u))
    (k : Word → State → State) : addressThen o s k = .next (k a u) := by
  simp [addressThen, h]

theorem addressThen_error {o : Operand} {s : State} {f : Fault} (h : o.ea s = .error f)
    (k : Word → State → State) : addressThen o s k = .fault f := by
  simp [addressThen, h]

/-- What a read-modify-write does once its address is resolved (R54). -/
theorem modify_ok {o : Operand} {s u : State} {a : Word} (h : o.ea s = .ok (a, u)) (f : Byte → Byte → Byte × Byte) :
    modify o s f = .next (((u.accessed 1).busWrite a (f (u.peek a) u.sr).1).setSr (f (u.peek a) u.sr).2) := by
  simp [modify, addressThen_ok h, State.busRead]

theorem modify_error {o : Operand} {s : State} {f : Fault} (h : o.ea s = .error f)
    (g : Byte → Byte → Byte × Byte) : modify o s g = .fault f :=
  addressThen_error h _

/-- What an instruction that reads an operand can answer: the index fault, or what it makes of the byte. -/
theorem readThen_cases (o : Operand) (s : State) (k : Byte → State → State) :
    (0xFF < o.indexSum s ∧ s.cfg.zpIndexOverflow = .fault ∧
      readThen o s k = .fault (.addressRangeViolation (o.indexSum s) s)) ∨
    (¬ (0xFF < o.indexSum s ∧ s.cfg.zpIndexOverflow = .fault) ∧
      ∃ v n, o.read s = .ok (v, s.accessed n) ∧ readThen o s k = .next (k v (s.accessed n))) := by
  rcases o.read_cases s with ⟨h1, h2, h3⟩ | ⟨h1, v, n, h2⟩
  · exact .inl ⟨h1, h2, readThen_error h3 k⟩
  · exact .inr ⟨h1, v, n, h2, readThen_ok h2 k⟩

/-- What an instruction that uses an address can answer: the index fault, or what it makes of the address. -/
theorem addressThen_cases (o : Operand) (s : State) (k : Word → State → State) :
    (0xFF < o.indexSum s ∧ s.cfg.zpIndexOverflow = .fault ∧
      addressThen o s k = .fault (.addressRangeViolation (o.indexSum s) s)) ∨
    (¬ (0xFF < o.indexSum s ∧ s.cfg.zpIndexOverflow = .fault) ∧
      ∃ a n, o.ea s = .ok (a, s.accessed n) ∧ addressThen o s k = .next (k a (s.accessed n))) := by
  rcases o.ea_cases s with ⟨h1, h2, h3⟩ | ⟨h1, a, n, h2⟩
  · exact .inl ⟨h1, h2, addressThen_error h3 k⟩
  · exact .inr ⟨h1, a, n, h2, addressThen_ok h2 k⟩

/-- A branch target as integer arithmetic (R104). -/
theorem branch_target (pc : Word) (b : Byte) : pc + sext b =
    BitVec.ofInt 16 ((pc.toNat : Int) + (if b.toNat < 128 then (b.toNat : Int) else b.toNat - 256)) := by
  apply BitVec.eq_of_toNat_eq
  have hb := b.isLt
  have hp := pc.isLt
  rw [BitVec.toNat_add, BitVec.toNat_ofInt, sext, BitVec.toNat_signExtend, BitVec.msb_eq_decide, BitVec.toNat_setWidth]
  by_cases h : b.toNat < 128
  · rw [if_neg (by simp; omega), if_pos h]; omega
  · rw [if_pos (by simp; omega), if_neg h]; omega

end Sys2Proof.Machine
end

