-- ==== Sys2Proof/Laws/Step.lean ====
section
/-! SUPPORT. What a step can do (spec/49_dispatch.md R220 to R224): it runs one decoded instruction and charges its
cycles, or faults on an undefined opcode. -/

namespace Sys2Proof.Machine

theorem State.fetched_eq (s : State) (n : Nat) :
    s.fetched n = (s.accessed n).setPc (s.pc + BitVec.ofNat 16 n) := rfl

/-- A step with a defined opcode runs the instruction. -/
theorem step_of_fetched {s : State} {i : Instr} (h : s.fetchedInstr = some i) :
    step s = chargeCycles i.baseCycles (exec i (s.fetched (fetchLength i))) := by
  simp [step, State.stepOnce, h, State.runInstr]

/-- A step with an undefined opcode faults before anything else. -/
theorem step_of_undefined {s : State} (h : s.fetchedInstr = none) :
    step s = .fault (.unknownOpcode (s.peek s.pc) s.pc (s.fetched 1)) := by
  simp [step, State.stepOnce, h]

/-- No instruction is fetched exactly when the opcode byte has no entry. -/
theorem fetchedInstr_eq_none {s : State} : s.fetchedInstr = none ↔ opcodeForm (s.peek s.pc) = none := by
  unfold State.fetchedInstr
  cases opcodeForm (s.peek s.pc) <;> simp

/-- What a step that answers a next state has done. -/
theorem step_next {s t : State} (h : step s = .next t) : ∃ i u, s.fetchedInstr = some i ∧
    exec i (s.fetched (fetchLength i)) = .next u ∧ t = u.addCycles i.baseCycles := by
  cases hf : s.fetchedInstr with
  | none => rw [step_of_undefined hf] at h; cases h
  | some i =>
    rw [step_of_fetched hf] at h
    cases he : exec i (s.fetched (fetchLength i)) with
    | next u => rw [he] at h; cases h; exact ⟨i, u, rfl, he, rfl⟩
    | fault f => rw [he] at h; cases h
    | refused r => rw [he] at h; cases h

/-- What a step that faults has done. -/
theorem step_fault {s : State} {f : Fault} (h : step s = .fault f) :
    (s.fetchedInstr = none ∧ f = .unknownOpcode (s.peek s.pc) s.pc (s.fetched 1)) ∨
    ∃ i, s.fetchedInstr = some i ∧ exec i (s.fetched (fetchLength i)) = .fault f := by
  cases hf : s.fetchedInstr with
  | none => rw [step_of_undefined hf] at h; cases h; exact .inl ⟨rfl, rfl⟩
  | some i =>
    rw [step_of_fetched hf] at h
    cases he : exec i (s.fetched (fetchLength i)) with
    | next u => rw [he] at h; cases h
    | fault g => rw [he] at h; cases h; exact .inr ⟨i, rfl, he⟩
    | refused r => rw [he] at h; cases h

/-- The three bytes the bus answers decode to the fetched instruction. -/
theorem fetchedInstr_of_decode {s : State} {i : Instr} {rest : List Byte}
    (h : decode s.codeBytes = .ok (i, rest)) : s.fetchedInstr = some i := by
  unfold State.codeBytes at h
  unfold State.fetchedInstr
  simp only [decode] at h
  cases hf : opcodeForm (s.peek s.pc) with
  | none => rw [hf] at h; cases h
  | some f => rw [hf] at h; cases f <;> cases h <;> rfl

/-- The host's raw write keeps the canonical form. -/
theorem State.poke_inv {s : State} (h : s.Inv) (a : Word) (bytes : List Byte) : (s.poke a bytes).Inv := by
  induction bytes generalizing s a with
  | nil => exact h
  | cons v vs ih => exact ih (s := s.setMem (s.mem.write a.toNat v)) (Memory.wf_write h a v) (a + 1)

/-- Placing an instruction keeps the canonical form. -/
theorem State.withFetchWord_inv {s : State} (h : s.Inv) (nbits w : Nat) : (s.withFetchWord nbits w).Inv :=
  State.poke_inv (s := s.setHandlers []) h s.pc _

end Sys2Proof.Machine
end

