-- ==== Sys2Proof/Laws/Exec.lean ====
section
/-! SUPPORT. What `exec` can do, said once for all 151 arms: an instruction with an operand runs the one shared operation
of its mnemonic on that operand (JSR apart), and what that operation answers is a next state or the fault of the zero-page
index; an instruction without an operand is one of a list. -/

namespace Sys2Proof.Machine

/-- The shared operation of a mnemonic that takes an operand; the others are not asked. -/
def execOperand (m : Mnemonic) (o : Operand) (s : State) : Result :=
  match m with
  | .lda => loadAc o s
  | .ldx => loadXr o s
  | .ldy => loadYr o s
  | .sta => storeByte o s.ac s
  | .stx => storeByte o s.xr s
  | .sty => storeByte o s.yr s
  | .and => combineAc andOp o s
  | .ora => combineAc oraOp o s
  | .eor => combineAc eorOp o s
  | .bit => bitTest o s
  | .inc => modify o s incByte
  | .dec => modify o s decByte
  | .cmp => compareWith s.ac o s
  | .cpx => compareWith s.xr o s
  | .cpy => compareWith s.yr o s
  | .adc => addMemory o s
  | .sbc => subMemory o s
  | .asl => modify o s ShiftOp.asl.apply
  | .lsr => modify o s ShiftOp.lsr.apply
  | .rol => modify o s ShiftOp.rol.apply
  | .ror => modify o s ShiftOp.ror.apply
  | .jmp => jump o s
  | .jsr => callSubroutine s
  | .bcc => addressThen o s fun a t => if s.flag .C == false then t.setPc a else t
  | .bcs => addressThen o s fun a t => if s.flag .C == true then t.setPc a else t
  | .beq => addressThen o s fun a t => if s.flag .Z == true then t.setPc a else t
  | .bne => addressThen o s fun a t => if s.flag .Z == false then t.setPc a else t
  | .bpl => addressThen o s fun a t => if s.flag .N == false then t.setPc a else t
  | .bmi => addressThen o s fun a t => if s.flag .N == true then t.setPc a else t
  | .bvc => addressThen o s fun a t => if s.flag .V == false then t.setPc a else t
  | .bvs => addressThen o s fun a t => if s.flag .V == true then t.setPc a else t
  | _ => .next s

/-- Every arm with an operand is the shared operation of its mnemonic. -/
theorem exec_operand {i : Instr} {o : Operand} (h : operandOf i = some o) (s : State) :
    exec i s = execOperand i.mnemonic o s := by
  cases i <;> cases h <;> rfl

/-- The arms without an operand. -/
def impliedInstrs : List Instr :=
  [.inx, .iny, .dex, .dey, .aslAcc, .lsrAcc, .rolAcc, .rorAcc, .pha, .php, .pla, .plp] ++
  [.tax, .tay, .txa, .tya, .tsx, .txs, .clc, .sec, .cli, .sei, .cld, .sed, .clv, .nop, .rts, .brk, .rti]

/-- An instruction without an operand is in the list. -/
theorem implied_of_none {i : Instr} (h : operandOf i = none) : i ∈ impliedInstrs := by
  cases i <;> first | (cases h; done) | decide

/-- The state an instruction with an operand leaves: `a` is its effective address, `u` the state after resolving, `v` the
byte read and `w` the state after reading. -/
def operandResult (m : Mnemonic) (s : State) (a : Word) (u : State) (v : Byte) (w : State) : State :=
  match m with
  | .lda => (w.setAc v).setZN v
  | .ldx => (w.setXr v).setZN v
  | .ldy => (w.setYr v).setZN v
  | .sta => u.busWrite a s.ac
  | .stx => u.busWrite a s.xr
  | .sty => u.busWrite a s.yr
  | .and => (w.setAc (w.ac &&& v)).setZN (w.ac &&& v)
  | .ora => (w.setAc (w.ac ||| v)).setZN (w.ac ||| v)
  | .eor => (w.setAc (w.ac ^^^ v)).setZN (w.ac ^^^ v)
  | .bit => w.setSr (bitFlags w.ac v w.sr)
  | .inc => ((u.accessed 1).busWrite a (u.peek a + 1)).setSr (setZN (u.peek a + 1) u.sr)
  | .dec => ((u.accessed 1).busWrite a (u.peek a - 1)).setSr (setZN (u.peek a - 1) u.sr)
  | .cmp => w.setSr (compareFlags s.ac v w.sr)
  | .cpx => w.setSr (compareFlags s.xr v w.sr)
  | .cpy => w.setSr (compareFlags s.yr v w.sr)
  | .adc => w.addCore v
  | .sbc => w.addCore (v ^^^ 0xFF)
  | .asl => ((u.accessed 1).busWrite a (ShiftOp.asl.apply (u.peek a) u.sr).1).setSr (ShiftOp.asl.apply (u.peek a) u.sr).2
  | .lsr => ((u.accessed 1).busWrite a (ShiftOp.lsr.apply (u.peek a) u.sr).1).setSr (ShiftOp.lsr.apply (u.peek a) u.sr).2
  | .rol => ((u.accessed 1).busWrite a (ShiftOp.rol.apply (u.peek a) u.sr).1).setSr (ShiftOp.rol.apply (u.peek a) u.sr).2
  | .ror => ((u.accessed 1).busWrite a (ShiftOp.ror.apply (u.peek a) u.sr).1).setSr (ShiftOp.ror.apply (u.peek a) u.sr).2
  | .jmp => u.setPc a
  | .jsr => ((s.pushWord (s.pc + 1)).busReadWord s.pc).2.setPc ((s.pushWord (s.pc + 1)).busReadWord s.pc).1
  | .bcc => if s.flag .C == false then u.setPc a else u
  | .bcs => if s.flag .C == true then u.setPc a else u
  | .beq => if s.flag .Z == true then u.setPc a else u
  | .bne => if s.flag .Z == false then u.setPc a else u
  | .bpl => if s.flag .N == false then u.setPc a else u
  | .bmi => if s.flag .N == true then u.setPc a else u
  | .bvc => if s.flag .V == false then u.setPc a else u
  | .bvs => if s.flag .V == true then u.setPc a else u
  | _ => s

/-- Once its operand is resolved and read, an instruction leaves the state of its row above. -/
theorem execOperand_next (m : Mnemonic) {o : Operand} {s u w : State} {a : Word} {v : Byte} (ha : o.ea s = .ok (a, u))
    (hv : o.read s = .ok (v, w)) : execOperand m o s = .next (operandResult m s a u v w) := by
  cases m with
  | jsr => simp [execOperand, callSubroutine, operandResult, State.pushWord_eq]
  | inc => exact modify_ok ha incByte
  | dec => exact modify_ok ha decByte
  | asl => exact modify_ok ha ShiftOp.asl.apply
  | lsr => exact modify_ok ha ShiftOp.lsr.apply
  | rol => exact modify_ok ha ShiftOp.rol.apply
  | ror => exact modify_ok ha ShiftOp.ror.apply
  | sta | stx | sty | jmp | bcc | bcs | beq | bne | bpl | bmi | bvc | bvs => exact addressThen_ok ha _
  | lda | ldx | ldy | and | ora | eor | bit | cmp | cpx | cpy | adc | sbc => exact readThen_ok hv _
  | _ => rfl

/-- The state an instruction without an operand leaves. -/
def impliedResult (i : Instr) (s : State) : State :=
  match i with
  | .inx => (s.setXr (s.xr + 1)).setZN (s.xr + 1)
  | .iny => (s.setYr (s.yr + 1)).setZN (s.yr + 1)
  | .dex => (s.setXr (s.xr - 1)).setZN (s.xr - 1)
  | .dey => (s.setYr (s.yr - 1)).setZN (s.yr - 1)
  | .aslAcc => (s.setAc (ShiftOp.asl.apply s.ac s.sr).1).setSr (ShiftOp.asl.apply s.ac s.sr).2
  | .lsrAcc => (s.setAc (ShiftOp.lsr.apply s.ac s.sr).1).setSr (ShiftOp.lsr.apply s.ac s.sr).2
  | .rolAcc => (s.setAc (ShiftOp.rol.apply s.ac s.sr).1).setSr (ShiftOp.rol.apply s.ac s.sr).2
  | .rorAcc => (s.setAc (ShiftOp.ror.apply s.ac s.sr).1).setSr (ShiftOp.ror.apply s.ac s.sr).2
  | .pha => s.push s.ac
  | .php => s.push (s.sr ||| s.cfg.phpOrMask)
  | .pla => (s.pop.2.setAc s.pop.1).setZN s.pop.1
  | .plp => s.pop.2.setSr s.pop.1
  | .tax => (s.setXr s.ac).setZN s.ac
  | .tay => (s.setYr s.ac).setZN s.ac
  | .txa => (s.setAc s.xr).setZN s.xr
  | .tya => (s.setAc s.yr).setZN s.yr
  | .tsx => (s.setXr s.sp).setZN s.sp
  | .txs => s.setSp s.xr
  | .clc => s.setFlag .C false
  | .sec => s.setFlag .C true
  | .cli => s.setFlag .I false
  | .sei => s.setFlag .I true
  | .cld => s.setFlag .D false
  | .sed => s.setFlag .D true
  | .clv => s.setFlag .V false
  | .rts => s.popWord.2.setPc (s.popWord.1 + 1)
  | .brk => s.takeTrap
  | .rti => s.returnFromTrap
  | _ => s

/-- An instruction without an operand leaves the state of its row above. -/
theorem exec_implied {i : Instr} (h : operandOf i = none) (s : State) : exec i s = .next (impliedResult i s) := by
  have := implied_of_none h
  revert i
  simp only [impliedInstrs, List.cons_append, List.nil_append]
  intro i _ hi
  simp only [List.mem_cons, List.not_mem_nil, or_false] at hi
  obtain rfl | rfl | rfl | rfl | rfl | rfl | rfl | rfl | rfl | rfl | rfl | rfl | rfl | rfl | rfl | rfl | rfl | rfl | rfl |
    rfl | rfl | rfl | rfl | rfl | rfl | rfl | rfl | rfl | rfl := hi <;> rfl

/-- Only modes `ZPX` and `ZPY` have an index sum. -/
theorem mode_of_indexSum {i : Instr} {s : State} {o : Operand} (ho : operandOf i = some o) (h : 0 < o.indexSum s) :
    i.mode = .zpx ∨ i.mode = .zpy := by
  cases i <;> cases ho <;> first | exact .inl rfl | exact .inr rfl | exact absurd h (Nat.lt_irrefl 0)

/-- An operand that does not resolve faults the instruction; no other operand of JSR than an absolute one exists. -/
theorem execOperand_error {i : Instr} {o : Operand} {s : State} {f : Fault} (ho : operandOf i = some o)
    (h : o.ea s = .error f) : execOperand i.mnemonic o s = .fault f := by
  rcases o.ea_cases s with ⟨h1, h2, h3⟩ | ⟨_, _, _, h3⟩
  · rw [h3] at h; cases h
    rcases o.read_cases s with ⟨_, _, h4⟩ | ⟨h4, _⟩
    · have hm := mode_of_indexSum ho (Nat.lt_trans (by decide) h1)
      cases i <;> first
        | (rcases hm with hm | hm <;> cases hm; done)
        | exact readThen_error h4 _
        | exact addressThen_error h3 _
    · exact absurd ⟨h1, h2⟩ h4
  · rw [h3] at h; cases h

/-- Everything `exec` can answer as a next state. -/
theorem exec_next {i : Instr} {s t : State} (h : exec i s = .next t) :
    (operandOf i = none ∧ t = impliedResult i s) ∨
    ∃ o a n v k, operandOf i = some o ∧ o.ea s = .ok (a, s.accessed n) ∧ o.read s = .ok (v, s.accessed k) ∧
      t = operandResult i.mnemonic s a (s.accessed n) v (s.accessed k) := by
  cases ho : operandOf i with
  | none => rw [exec_implied ho] at h; cases h; exact .inl ⟨rfl, rfl⟩
  | some o =>
    rw [exec_operand ho] at h
    rcases o.ea_cases s with ⟨_, _, h3⟩ | ⟨h1, a, n, h3⟩
    · rw [execOperand_error ho h3] at h; cases h
    · rcases o.read_cases s with ⟨h4, h5, _⟩ | ⟨_, v, k, h4⟩
      · exact absurd ⟨h4, h5⟩ h1
      · rw [execOperand_next _ h3 h4] at h; cases h
        exact .inr ⟨o, a, n, v, k, rfl, h3, h4, rfl⟩

end Sys2Proof.Machine
end

