-- ==== Sys2Proof/Laws/PerInstr.lean ====
section
/-! SUPPORT. The family `Shape` of LAWS.json: facts about an instruction as syntax, one lemma per constructor: it is well
formed, and its encoding is as long as its addressing mode says and starts with its opcode (spec/30_encoding.md R70 to
R74). -/

namespace Sys2Proof.Laws.Shape

/-- The instruction is well formed, its encoding has its length, and its operand bytes are those of its mode. -/
def Statement (i : Instr) : Prop :=
  i.wf = true ∧ (encode i).length = i.length ∧ i.args.length = i.mode.operandBytes

/-- No operand: every clause is a closed fact. -/
theorem of_none {i : Instr} (ha : i.args = .none) (hm : i.mode.operandBytes = 0)
    (hl : i.mode ∈ i.mnemonic.modes) : Statement i := by
  simp [Statement, Instr.wf, Source.wf, Source.legalMode, Source.fits, Instr.source, encode, Instr.length, Mode.length,
    Args.length, Args.bytes, Args.value, ha, hm, hl]

/-- One operand byte: it fits its mode. -/
theorem of_byte {i : Instr} {b : Byte} (ha : i.args = .byte b) (hm : i.mode.operandBytes = 1)
    (hl : i.mode ∈ i.mnemonic.modes) : Statement i := by
  have := b.isLt
  simp [Statement, Instr.wf, Source.wf, Source.legalMode, Source.fits, Instr.source, encode, Instr.length, Mode.length,
    Args.length, Args.bytes, Args.value, ha, hm, hl]
  omega

/-- Two operand bytes: the word fits its mode. -/
theorem of_word {i : Instr} {w : Word} (ha : i.args = .word w) (hm : i.mode.operandBytes = 2)
    (hl : i.mode ∈ i.mnemonic.modes) : Statement i := by
  have := w.isLt
  simp [Statement, Instr.wf, Source.wf, Source.legalMode, Source.fits, Instr.source, encode, Instr.length, Mode.length,
    Args.length, Args.bytes, Args.value, ha, hm, hl]
  omega

theorem ldaImm (b : Byte) : Statement (.ldaImm b) := of_byte rfl rfl (show Mode.imm ∈ Mnemonic.lda.modes by decide)
theorem ldaZp (b : Byte) : Statement (.ldaZp b) := of_byte rfl rfl (show Mode.zp ∈ Mnemonic.lda.modes by decide)
theorem ldaZpx (b : Byte) : Statement (.ldaZpx b) := of_byte rfl rfl (show Mode.zpx ∈ Mnemonic.lda.modes by decide)
theorem ldaAbs (w : Word) : Statement (.ldaAbs w) := of_word rfl rfl (show Mode.abs ∈ Mnemonic.lda.modes by decide)
theorem ldaAbx (w : Word) : Statement (.ldaAbx w) := of_word rfl rfl (show Mode.abx ∈ Mnemonic.lda.modes by decide)
theorem ldaAby (w : Word) : Statement (.ldaAby w) := of_word rfl rfl (show Mode.aby ∈ Mnemonic.lda.modes by decide)
theorem ldaIzx (b : Byte) : Statement (.ldaIzx b) := of_byte rfl rfl (show Mode.izx ∈ Mnemonic.lda.modes by decide)
theorem ldaIzy (b : Byte) : Statement (.ldaIzy b) := of_byte rfl rfl (show Mode.izy ∈ Mnemonic.lda.modes by decide)
theorem ldxImm (b : Byte) : Statement (.ldxImm b) := of_byte rfl rfl (show Mode.imm ∈ Mnemonic.ldx.modes by decide)
theorem ldxZp (b : Byte) : Statement (.ldxZp b) := of_byte rfl rfl (show Mode.zp ∈ Mnemonic.ldx.modes by decide)
theorem ldxZpy (b : Byte) : Statement (.ldxZpy b) := of_byte rfl rfl (show Mode.zpy ∈ Mnemonic.ldx.modes by decide)
theorem ldxAbs (w : Word) : Statement (.ldxAbs w) := of_word rfl rfl (show Mode.abs ∈ Mnemonic.ldx.modes by decide)
theorem ldxAby (w : Word) : Statement (.ldxAby w) := of_word rfl rfl (show Mode.aby ∈ Mnemonic.ldx.modes by decide)
theorem ldyImm (b : Byte) : Statement (.ldyImm b) := of_byte rfl rfl (show Mode.imm ∈ Mnemonic.ldy.modes by decide)
theorem ldyZp (b : Byte) : Statement (.ldyZp b) := of_byte rfl rfl (show Mode.zp ∈ Mnemonic.ldy.modes by decide)
theorem ldyZpx (b : Byte) : Statement (.ldyZpx b) := of_byte rfl rfl (show Mode.zpx ∈ Mnemonic.ldy.modes by decide)
theorem ldyAbs (w : Word) : Statement (.ldyAbs w) := of_word rfl rfl (show Mode.abs ∈ Mnemonic.ldy.modes by decide)
theorem ldyAbx (w : Word) : Statement (.ldyAbx w) := of_word rfl rfl (show Mode.abx ∈ Mnemonic.ldy.modes by decide)
theorem staZp (b : Byte) : Statement (.staZp b) := of_byte rfl rfl (show Mode.zp ∈ Mnemonic.sta.modes by decide)
theorem staZpx (b : Byte) : Statement (.staZpx b) := of_byte rfl rfl (show Mode.zpx ∈ Mnemonic.sta.modes by decide)
theorem staAbs (w : Word) : Statement (.staAbs w) := of_word rfl rfl (show Mode.abs ∈ Mnemonic.sta.modes by decide)
theorem staAbx (w : Word) : Statement (.staAbx w) := of_word rfl rfl (show Mode.abx ∈ Mnemonic.sta.modes by decide)
theorem staAby (w : Word) : Statement (.staAby w) := of_word rfl rfl (show Mode.aby ∈ Mnemonic.sta.modes by decide)
theorem staIzx (b : Byte) : Statement (.staIzx b) := of_byte rfl rfl (show Mode.izx ∈ Mnemonic.sta.modes by decide)
theorem staIzy (b : Byte) : Statement (.staIzy b) := of_byte rfl rfl (show Mode.izy ∈ Mnemonic.sta.modes by decide)
theorem stxZp (b : Byte) : Statement (.stxZp b) := of_byte rfl rfl (show Mode.zp ∈ Mnemonic.stx.modes by decide)
theorem stxZpy (b : Byte) : Statement (.stxZpy b) := of_byte rfl rfl (show Mode.zpy ∈ Mnemonic.stx.modes by decide)
theorem stxAbs (w : Word) : Statement (.stxAbs w) := of_word rfl rfl (show Mode.abs ∈ Mnemonic.stx.modes by decide)
theorem styZp (b : Byte) : Statement (.styZp b) := of_byte rfl rfl (show Mode.zp ∈ Mnemonic.sty.modes by decide)
theorem styZpx (b : Byte) : Statement (.styZpx b) := of_byte rfl rfl (show Mode.zpx ∈ Mnemonic.sty.modes by decide)
theorem styAbs (w : Word) : Statement (.styAbs w) := of_word rfl rfl (show Mode.abs ∈ Mnemonic.sty.modes by decide)
theorem andImm (b : Byte) : Statement (.andImm b) := of_byte rfl rfl (show Mode.imm ∈ Mnemonic.and.modes by decide)
theorem andZp (b : Byte) : Statement (.andZp b) := of_byte rfl rfl (show Mode.zp ∈ Mnemonic.and.modes by decide)
theorem andZpx (b : Byte) : Statement (.andZpx b) := of_byte rfl rfl (show Mode.zpx ∈ Mnemonic.and.modes by decide)
theorem andAbs (w : Word) : Statement (.andAbs w) := of_word rfl rfl (show Mode.abs ∈ Mnemonic.and.modes by decide)
theorem andAbx (w : Word) : Statement (.andAbx w) := of_word rfl rfl (show Mode.abx ∈ Mnemonic.and.modes by decide)
theorem andAby (w : Word) : Statement (.andAby w) := of_word rfl rfl (show Mode.aby ∈ Mnemonic.and.modes by decide)
theorem andIzx (b : Byte) : Statement (.andIzx b) := of_byte rfl rfl (show Mode.izx ∈ Mnemonic.and.modes by decide)
theorem andIzy (b : Byte) : Statement (.andIzy b) := of_byte rfl rfl (show Mode.izy ∈ Mnemonic.and.modes by decide)
theorem oraImm (b : Byte) : Statement (.oraImm b) := of_byte rfl rfl (show Mode.imm ∈ Mnemonic.ora.modes by decide)
theorem oraZp (b : Byte) : Statement (.oraZp b) := of_byte rfl rfl (show Mode.zp ∈ Mnemonic.ora.modes by decide)
theorem oraZpx (b : Byte) : Statement (.oraZpx b) := of_byte rfl rfl (show Mode.zpx ∈ Mnemonic.ora.modes by decide)
theorem oraAbs (w : Word) : Statement (.oraAbs w) := of_word rfl rfl (show Mode.abs ∈ Mnemonic.ora.modes by decide)
theorem oraAbx (w : Word) : Statement (.oraAbx w) := of_word rfl rfl (show Mode.abx ∈ Mnemonic.ora.modes by decide)
theorem oraAby (w : Word) : Statement (.oraAby w) := of_word rfl rfl (show Mode.aby ∈ Mnemonic.ora.modes by decide)
theorem oraIzx (b : Byte) : Statement (.oraIzx b) := of_byte rfl rfl (show Mode.izx ∈ Mnemonic.ora.modes by decide)
theorem oraIzy (b : Byte) : Statement (.oraIzy b) := of_byte rfl rfl (show Mode.izy ∈ Mnemonic.ora.modes by decide)
theorem eorImm (b : Byte) : Statement (.eorImm b) := of_byte rfl rfl (show Mode.imm ∈ Mnemonic.eor.modes by decide)
theorem eorZp (b : Byte) : Statement (.eorZp b) := of_byte rfl rfl (show Mode.zp ∈ Mnemonic.eor.modes by decide)
theorem eorZpx (b : Byte) : Statement (.eorZpx b) := of_byte rfl rfl (show Mode.zpx ∈ Mnemonic.eor.modes by decide)
theorem eorAbs (w : Word) : Statement (.eorAbs w) := of_word rfl rfl (show Mode.abs ∈ Mnemonic.eor.modes by decide)
theorem eorAbx (w : Word) : Statement (.eorAbx w) := of_word rfl rfl (show Mode.abx ∈ Mnemonic.eor.modes by decide)
theorem eorAby (w : Word) : Statement (.eorAby w) := of_word rfl rfl (show Mode.aby ∈ Mnemonic.eor.modes by decide)
theorem eorIzx (b : Byte) : Statement (.eorIzx b) := of_byte rfl rfl (show Mode.izx ∈ Mnemonic.eor.modes by decide)
theorem eorIzy (b : Byte) : Statement (.eorIzy b) := of_byte rfl rfl (show Mode.izy ∈ Mnemonic.eor.modes by decide)
theorem bitZp (b : Byte) : Statement (.bitZp b) := of_byte rfl rfl (show Mode.zp ∈ Mnemonic.bit.modes by decide)
theorem bitAbs (w : Word) : Statement (.bitAbs w) := of_word rfl rfl (show Mode.abs ∈ Mnemonic.bit.modes by decide)
theorem incZp (b : Byte) : Statement (.incZp b) := of_byte rfl rfl (show Mode.zp ∈ Mnemonic.inc.modes by decide)
theorem incZpx (b : Byte) : Statement (.incZpx b) := of_byte rfl rfl (show Mode.zpx ∈ Mnemonic.inc.modes by decide)
theorem incAbs (w : Word) : Statement (.incAbs w) := of_word rfl rfl (show Mode.abs ∈ Mnemonic.inc.modes by decide)
theorem incAbx (w : Word) : Statement (.incAbx w) := of_word rfl rfl (show Mode.abx ∈ Mnemonic.inc.modes by decide)
theorem decZp (b : Byte) : Statement (.decZp b) := of_byte rfl rfl (show Mode.zp ∈ Mnemonic.dec.modes by decide)
theorem decZpx (b : Byte) : Statement (.decZpx b) := of_byte rfl rfl (show Mode.zpx ∈ Mnemonic.dec.modes by decide)
theorem decAbs (w : Word) : Statement (.decAbs w) := of_word rfl rfl (show Mode.abs ∈ Mnemonic.dec.modes by decide)
theorem decAbx (w : Word) : Statement (.decAbx w) := of_word rfl rfl (show Mode.abx ∈ Mnemonic.dec.modes by decide)
theorem inx : Statement (.inx) := of_none rfl rfl (show Mode.imp ∈ Mnemonic.inx.modes by decide)
theorem iny : Statement (.iny) := of_none rfl rfl (show Mode.imp ∈ Mnemonic.iny.modes by decide)
theorem dex : Statement (.dex) := of_none rfl rfl (show Mode.imp ∈ Mnemonic.dex.modes by decide)
theorem dey : Statement (.dey) := of_none rfl rfl (show Mode.imp ∈ Mnemonic.dey.modes by decide)
theorem cmpImm (b : Byte) : Statement (.cmpImm b) := of_byte rfl rfl (show Mode.imm ∈ Mnemonic.cmp.modes by decide)
theorem cmpZp (b : Byte) : Statement (.cmpZp b) := of_byte rfl rfl (show Mode.zp ∈ Mnemonic.cmp.modes by decide)
theorem cmpZpx (b : Byte) : Statement (.cmpZpx b) := of_byte rfl rfl (show Mode.zpx ∈ Mnemonic.cmp.modes by decide)
theorem cmpAbs (w : Word) : Statement (.cmpAbs w) := of_word rfl rfl (show Mode.abs ∈ Mnemonic.cmp.modes by decide)
theorem cmpAbx (w : Word) : Statement (.cmpAbx w) := of_word rfl rfl (show Mode.abx ∈ Mnemonic.cmp.modes by decide)
theorem cmpAby (w : Word) : Statement (.cmpAby w) := of_word rfl rfl (show Mode.aby ∈ Mnemonic.cmp.modes by decide)
theorem cmpIzx (b : Byte) : Statement (.cmpIzx b) := of_byte rfl rfl (show Mode.izx ∈ Mnemonic.cmp.modes by decide)
theorem cmpIzy (b : Byte) : Statement (.cmpIzy b) := of_byte rfl rfl (show Mode.izy ∈ Mnemonic.cmp.modes by decide)
theorem cpxImm (b : Byte) : Statement (.cpxImm b) := of_byte rfl rfl (show Mode.imm ∈ Mnemonic.cpx.modes by decide)
theorem cpxZp (b : Byte) : Statement (.cpxZp b) := of_byte rfl rfl (show Mode.zp ∈ Mnemonic.cpx.modes by decide)
theorem cpxAbs (w : Word) : Statement (.cpxAbs w) := of_word rfl rfl (show Mode.abs ∈ Mnemonic.cpx.modes by decide)
theorem cpyImm (b : Byte) : Statement (.cpyImm b) := of_byte rfl rfl (show Mode.imm ∈ Mnemonic.cpy.modes by decide)
theorem cpyZp (b : Byte) : Statement (.cpyZp b) := of_byte rfl rfl (show Mode.zp ∈ Mnemonic.cpy.modes by decide)
theorem cpyAbs (w : Word) : Statement (.cpyAbs w) := of_word rfl rfl (show Mode.abs ∈ Mnemonic.cpy.modes by decide)
theorem adcImm (b : Byte) : Statement (.adcImm b) := of_byte rfl rfl (show Mode.imm ∈ Mnemonic.adc.modes by decide)
theorem adcZp (b : Byte) : Statement (.adcZp b) := of_byte rfl rfl (show Mode.zp ∈ Mnemonic.adc.modes by decide)
theorem adcZpx (b : Byte) : Statement (.adcZpx b) := of_byte rfl rfl (show Mode.zpx ∈ Mnemonic.adc.modes by decide)
theorem adcAbs (w : Word) : Statement (.adcAbs w) := of_word rfl rfl (show Mode.abs ∈ Mnemonic.adc.modes by decide)
theorem adcAbx (w : Word) : Statement (.adcAbx w) := of_word rfl rfl (show Mode.abx ∈ Mnemonic.adc.modes by decide)
theorem adcAby (w : Word) : Statement (.adcAby w) := of_word rfl rfl (show Mode.aby ∈ Mnemonic.adc.modes by decide)
theorem adcIzx (b : Byte) : Statement (.adcIzx b) := of_byte rfl rfl (show Mode.izx ∈ Mnemonic.adc.modes by decide)
theorem adcIzy (b : Byte) : Statement (.adcIzy b) := of_byte rfl rfl (show Mode.izy ∈ Mnemonic.adc.modes by decide)
theorem sbcImm (b : Byte) : Statement (.sbcImm b) := of_byte rfl rfl (show Mode.imm ∈ Mnemonic.sbc.modes by decide)
theorem sbcZp (b : Byte) : Statement (.sbcZp b) := of_byte rfl rfl (show Mode.zp ∈ Mnemonic.sbc.modes by decide)
theorem sbcZpx (b : Byte) : Statement (.sbcZpx b) := of_byte rfl rfl (show Mode.zpx ∈ Mnemonic.sbc.modes by decide)
theorem sbcAbs (w : Word) : Statement (.sbcAbs w) := of_word rfl rfl (show Mode.abs ∈ Mnemonic.sbc.modes by decide)
theorem sbcAbx (w : Word) : Statement (.sbcAbx w) := of_word rfl rfl (show Mode.abx ∈ Mnemonic.sbc.modes by decide)
theorem sbcAby (w : Word) : Statement (.sbcAby w) := of_word rfl rfl (show Mode.aby ∈ Mnemonic.sbc.modes by decide)
theorem sbcIzx (b : Byte) : Statement (.sbcIzx b) := of_byte rfl rfl (show Mode.izx ∈ Mnemonic.sbc.modes by decide)
theorem sbcIzy (b : Byte) : Statement (.sbcIzy b) := of_byte rfl rfl (show Mode.izy ∈ Mnemonic.sbc.modes by decide)
theorem aslAcc : Statement (.aslAcc) := of_none rfl rfl (show Mode.acc ∈ Mnemonic.asl.modes by decide)
theorem aslZp (b : Byte) : Statement (.aslZp b) := of_byte rfl rfl (show Mode.zp ∈ Mnemonic.asl.modes by decide)
theorem aslZpx (b : Byte) : Statement (.aslZpx b) := of_byte rfl rfl (show Mode.zpx ∈ Mnemonic.asl.modes by decide)
theorem aslAbs (w : Word) : Statement (.aslAbs w) := of_word rfl rfl (show Mode.abs ∈ Mnemonic.asl.modes by decide)
theorem aslAbx (w : Word) : Statement (.aslAbx w) := of_word rfl rfl (show Mode.abx ∈ Mnemonic.asl.modes by decide)
theorem lsrAcc : Statement (.lsrAcc) := of_none rfl rfl (show Mode.acc ∈ Mnemonic.lsr.modes by decide)
theorem lsrZp (b : Byte) : Statement (.lsrZp b) := of_byte rfl rfl (show Mode.zp ∈ Mnemonic.lsr.modes by decide)
theorem lsrZpx (b : Byte) : Statement (.lsrZpx b) := of_byte rfl rfl (show Mode.zpx ∈ Mnemonic.lsr.modes by decide)
theorem lsrAbs (w : Word) : Statement (.lsrAbs w) := of_word rfl rfl (show Mode.abs ∈ Mnemonic.lsr.modes by decide)
theorem lsrAbx (w : Word) : Statement (.lsrAbx w) := of_word rfl rfl (show Mode.abx ∈ Mnemonic.lsr.modes by decide)
theorem rolAcc : Statement (.rolAcc) := of_none rfl rfl (show Mode.acc ∈ Mnemonic.rol.modes by decide)
theorem rolZp (b : Byte) : Statement (.rolZp b) := of_byte rfl rfl (show Mode.zp ∈ Mnemonic.rol.modes by decide)
theorem rolZpx (b : Byte) : Statement (.rolZpx b) := of_byte rfl rfl (show Mode.zpx ∈ Mnemonic.rol.modes by decide)
theorem rolAbs (w : Word) : Statement (.rolAbs w) := of_word rfl rfl (show Mode.abs ∈ Mnemonic.rol.modes by decide)
theorem rolAbx (w : Word) : Statement (.rolAbx w) := of_word rfl rfl (show Mode.abx ∈ Mnemonic.rol.modes by decide)
theorem rorAcc : Statement (.rorAcc) := of_none rfl rfl (show Mode.acc ∈ Mnemonic.ror.modes by decide)
theorem rorZp (b : Byte) : Statement (.rorZp b) := of_byte rfl rfl (show Mode.zp ∈ Mnemonic.ror.modes by decide)
theorem rorZpx (b : Byte) : Statement (.rorZpx b) := of_byte rfl rfl (show Mode.zpx ∈ Mnemonic.ror.modes by decide)
theorem rorAbs (w : Word) : Statement (.rorAbs w) := of_word rfl rfl (show Mode.abs ∈ Mnemonic.ror.modes by decide)
theorem rorAbx (w : Word) : Statement (.rorAbx w) := of_word rfl rfl (show Mode.abx ∈ Mnemonic.ror.modes by decide)
theorem pha : Statement (.pha) := of_none rfl rfl (show Mode.imp ∈ Mnemonic.pha.modes by decide)
theorem php : Statement (.php) := of_none rfl rfl (show Mode.imp ∈ Mnemonic.php.modes by decide)
theorem pla : Statement (.pla) := of_none rfl rfl (show Mode.imp ∈ Mnemonic.pla.modes by decide)
theorem plp : Statement (.plp) := of_none rfl rfl (show Mode.imp ∈ Mnemonic.plp.modes by decide)
theorem tax : Statement (.tax) := of_none rfl rfl (show Mode.imp ∈ Mnemonic.tax.modes by decide)
theorem tay : Statement (.tay) := of_none rfl rfl (show Mode.imp ∈ Mnemonic.tay.modes by decide)
theorem txa : Statement (.txa) := of_none rfl rfl (show Mode.imp ∈ Mnemonic.txa.modes by decide)
theorem tya : Statement (.tya) := of_none rfl rfl (show Mode.imp ∈ Mnemonic.tya.modes by decide)
theorem tsx : Statement (.tsx) := of_none rfl rfl (show Mode.imp ∈ Mnemonic.tsx.modes by decide)
theorem txs : Statement (.txs) := of_none rfl rfl (show Mode.imp ∈ Mnemonic.txs.modes by decide)
theorem clc : Statement (.clc) := of_none rfl rfl (show Mode.imp ∈ Mnemonic.clc.modes by decide)
theorem sec : Statement (.sec) := of_none rfl rfl (show Mode.imp ∈ Mnemonic.sec.modes by decide)
theorem cli : Statement (.cli) := of_none rfl rfl (show Mode.imp ∈ Mnemonic.cli.modes by decide)
theorem sei : Statement (.sei) := of_none rfl rfl (show Mode.imp ∈ Mnemonic.sei.modes by decide)
theorem cld : Statement (.cld) := of_none rfl rfl (show Mode.imp ∈ Mnemonic.cld.modes by decide)
theorem sed : Statement (.sed) := of_none rfl rfl (show Mode.imp ∈ Mnemonic.sed.modes by decide)
theorem clv : Statement (.clv) := of_none rfl rfl (show Mode.imp ∈ Mnemonic.clv.modes by decide)
theorem nop : Statement (.nop) := of_none rfl rfl (show Mode.imp ∈ Mnemonic.nop.modes by decide)
theorem jmpAbs (w : Word) : Statement (.jmpAbs w) := of_word rfl rfl (show Mode.abs ∈ Mnemonic.jmp.modes by decide)
theorem jmpInd (w : Word) : Statement (.jmpInd w) := of_word rfl rfl (show Mode.ind ∈ Mnemonic.jmp.modes by decide)
theorem jsr (w : Word) : Statement (.jsr w) := of_word rfl rfl (show Mode.abs ∈ Mnemonic.jsr.modes by decide)
theorem rts : Statement (.rts) := of_none rfl rfl (show Mode.imp ∈ Mnemonic.rts.modes by decide)
theorem brk : Statement (.brk) := of_none rfl rfl (show Mode.imp ∈ Mnemonic.brk.modes by decide)
theorem rti : Statement (.rti) := of_none rfl rfl (show Mode.imp ∈ Mnemonic.rti.modes by decide)
theorem bcc (b : Byte) : Statement (.bcc b) := of_byte rfl rfl (show Mode.rel ∈ Mnemonic.bcc.modes by decide)
theorem bcs (b : Byte) : Statement (.bcs b) := of_byte rfl rfl (show Mode.rel ∈ Mnemonic.bcs.modes by decide)
theorem beq (b : Byte) : Statement (.beq b) := of_byte rfl rfl (show Mode.rel ∈ Mnemonic.beq.modes by decide)
theorem bne (b : Byte) : Statement (.bne b) := of_byte rfl rfl (show Mode.rel ∈ Mnemonic.bne.modes by decide)
theorem bpl (b : Byte) : Statement (.bpl b) := of_byte rfl rfl (show Mode.rel ∈ Mnemonic.bpl.modes by decide)
theorem bmi (b : Byte) : Statement (.bmi b) := of_byte rfl rfl (show Mode.rel ∈ Mnemonic.bmi.modes by decide)
theorem bvc (b : Byte) : Statement (.bvc b) := of_byte rfl rfl (show Mode.rel ∈ Mnemonic.bvc.modes by decide)
theorem bvs (b : Byte) : Statement (.bvs b) := of_byte rfl rfl (show Mode.rel ∈ Mnemonic.bvs.modes by decide)

end Sys2Proof.Laws.Shape
end

