-- ==== Sys2Proof/Laws/Session.lean ====
section
/-! SUPPORT. What the host's acts and the runs built from them can do (spec/49_dispatch.md R225 to R227): an act keeps the
configuration, `cycles` and the canonical form of memory; runs compose. -/

namespace Sys2Proof.Machine

/-! ### Going on from a result -/

@[simp] theorem andThen_next (t : State) (k : State → Result) : andThen (.next t) k = k t := rfl

@[simp] theorem andThen_fault (f : Fault) (k : State → Result) : andThen (.fault f) k = .fault f := rfl

@[simp] theorem andThen_refused (x : Refusal) (k : State → Result) : andThen (.refused x) k = .refused x := rfl

theorem andThen_eq_next {r : Result} {k : State → Result} {t : State} (h : andThen r k = .next t) :
    ∃ u, r = .next u ∧ k u = .next t := by
  cases r with
  | next u => exact ⟨u, rfl, h⟩
  | fault f => cases h
  | refused x => cases h

/-! ### The host's acts -/

/-- What a byte write of the host that completes can do (R43). -/
theorem memWriteByte_next {a : Word} {v : Int} {s t : State} (h : memWriteByte a v s = .next t) :
    t = s.accessed 1 ∨ t = s.busWrite a (BitVec.ofInt 8 v) := by
  unfold memWriteByte at h
  by_cases hi : s.intercepts a (BitVec.ofInt 8 v) = true
  · rw [if_pos hi] at h; cases h; exact .inl rfl
  · rw [if_neg hi] at h
    by_cases hr : 0 ≤ v ∧ v ≤ 255
    · rw [if_pos hr] at h; cases h; exact .inr rfl
    · rw [if_neg hr] at h; cases h

/-- What a word write of the host that completes does (R46). -/
theorem memWriteWord_next {a : Word} {w : Int} {s t : State} (h : memWriteWord a w s = .next t) :
    t = s.busWriteWord a (BitVec.ofInt 16 w) := by
  unfold memWriteWord at h
  by_cases hr : 0 ≤ w ∧ w ≤ 65535
  · rw [if_pos hr] at h; cases h; rfl
  · rw [if_neg hr] at h; cases h

/-- What a raw write of the host that completes does (R57, R243). -/
theorem pokeByte_next {a : Word} {v : Int} {s t : State} (h : pokeByte a v s = .next t) :
    t = s.poke a [BitVec.ofInt 8 v] := by
  unfold pokeByte at h
  by_cases hr : 0 ≤ v ∧ v ≤ 255
  · rw [if_pos hr] at h; cases h; rfl
  · rw [if_neg hr] at h; cases h

/-- No act of the host writes the configuration or `cycles` (R23, R25). -/
theorem hostMove_keeps {m : HostMove} {s t : State} (h : hostMove m s = .next t) :
    t.cfg = s.cfg ∧ t.cycles = s.cycles := by
  cases m with
  | writeByte a v => rcases memWriteByte_next h with rfl | rfl <;> simp [State.busWrite_eq]
  | writeWord a w => rw [memWriteWord_next h]; simp [State.busWriteWord, State.busWrite_eq]
  | pokeByte a v => rw [pokeByte_next h]; exact ⟨rfl, rfl⟩
  | _ => cases h; exact ⟨rfl, rfl⟩

/-- Every act of the host keeps the canonical form of memory. -/
theorem hostMove_inv {m : HostMove} {s t : State} (hs : s.Inv) (h : hostMove m s = .next t) : t.Inv := by
  cases m with
  | writeByte a v =>
    rcases memWriteByte_next h with rfl | rfl
    · exact hs
    · exact State.busWrite_inv hs a _
  | writeWord a w => rw [memWriteWord_next h]; exact State.busWriteWord_inv hs a _
  | pokeByte a v => rw [pokeByte_next h]; exact State.poke_inv hs a _
  | _ => cases h; exact hs

/-! ### Runs -/

@[simp] theorem runEvents_nil (s : State) : runEvents [] s = .next s := rfl

@[simp] theorem runEvents_cons (e : Event) (es : List Event) (s : State) :
    runEvents (e :: es) s = andThen (runEvent e s) (runEvents es) := rfl

/-- A run in two parts is the second part after the first. -/
theorem runEvents_append (es fs : List Event) (s : State) :
    runEvents (es ++ fs) s = andThen (runEvents es s) (runEvents fs) := by
  induction es generalizing s with
  | nil => rfl
  | cons e es ih =>
    rw [List.cons_append, runEvents_cons, runEvents_cons]
    cases runEvent e s with
    | next t => exact ih t
    | fault f => rfl
    | refused x => rfl

@[simp] theorem stepsThen_zero (s : State) : stepsThen 0 s = .next s := rfl

theorem stepsThen_succ (n : Nat) (s : State) : stepsThen (n + 1) s = andThen (step s) (stepsThen n) := rfl

/-- Batches end normally only when the flag is clear. -/
theorem runBatches_stopped {batch : Nat → State → List Event} {callback : Nat → State → List HostMove} {n k : Nat}
    {s t : State} (h : runBatches batch callback n k s = some (.next t)) : t.running = false := by
  induction n generalizing k s with
  | zero =>
    unfold runBatches at h
    split at h
    · cases h
    · cases h; simp_all
  | succ n ih =>
    unfold runBatches at h
    split at h
    · split at h
      · exact ih h
      · cases h
      · cases h
    · cases h; simp_all

/-- Batches that start with the flag clear do nothing. -/
theorem runBatches_of_stopped {batch : Nat → State → List Event} {callback : Nat → State → List HostMove} {n k : Nat}
    {s : State} (h : s.running = false) : runBatches batch callback n k s = some (.next s) := by
  cases n <;> simp [runBatches, h]

/-- A run until `HALT` stops at a state that satisfies it and otherwise goes on with its next event. -/
theorem runUntil_of_halt {halt : State → Bool} {s : State} (h : halt s = true) (es : List Event) :
    runUntil halt es s = some (.next s) := by
  cases es <;> simp [runUntil, h]

theorem runUntil_cons_next {halt : State → Bool} {s u : State} {e : Event} (h : halt s = false)
    (he : runEvent e s = .next u) (es : List Event) : runUntil halt (e :: es) s = runUntil halt es u := by
  simp [runUntil, h, he]

end Sys2Proof.Machine
end

