-- ==== Sys2Proof/Tests/Slice0.lean ====
section
/-! SUPPORT. The model's own tests. Ill-formed instructions are refused; every opcode decodes from the word of the spec's
table (spec/30_encoding.md R74); single steps from the derived vectors of spec/95_test_vectors.md, whose expected values
are the spec's; its intercept-handler cases (T12); one witness for every obligation that has hypotheses. -/

namespace Sys2Proof.Machine

/-! ### Helpers -/

/-- The memory cells a case lists. -/
def State.withCells (s : State) : List (Word × Byte) → State
  | [] => s
  | (a, v) :: rest => (s.poke a [v]).withCells rest

/-- The configuration a case lists. -/
def State.withCfg (s : State) (c : Config) : State := { s with cfg := c }

end Sys2Proof.Machine

namespace Sys2Proof.Machine.Slice0

/-- The machine of file 95's conventions with bytes at an address and `PC` there. -/
def startAt (pc : Word) (bytes : List Byte) : State :=
  (State.reset.setPc pc).poke pc bytes

def noCompat : Config := { Config.default with compat := false }
def wrapping : Config := { Config.default with zpIndexOverflow := .wrap }
def pointerWraps : Config := { Config.default with zpPtrWrap := true }
def binaryCarry : Config := { Config.default with decCarry := .binarySum }
def phpMask : Config := { Config.default with phpOrMask := 0x30 }

/-- AC = 58, D and C set. -/
def decimalState : State := ((startAt 0x0200 [0xEA]).setAc 0x58).setSr 0x09

/-- The step answers a next state that meets the test. -/
def leaves (s : State) (p : State → Bool) : Bool :=
  match step s with
  | .next t => p t
  | _ => false

/-- The step faults and the state at the fault meets the test. -/
def faults (s : State) (p : State → Bool) : Bool :=
  match step s with
  | .fault (.unknownOpcode _ _ t) => p t
  | .fault (.addressRangeViolation _ t) => p t
  | _ => false

/-- Each word decodes to its instruction with nothing left, and its encoding is the word. -/
def decodeAll (words : List (List Byte × Instr)) : Bool :=
  words.all fun p =>
    match decode p.1 with
    | .ok (i, []) => i == p.2 && encode i == p.1
    | _ => false

/-! ### Ill-formed instructions -/

/-- There is no STA immediate (R74). -/
theorem test_wf_refuses_mode : (Source.legalMode ⟨.sta, .imm, 0x12⟩ || Source.wf ⟨.sta, .imm, 0x12⟩) = false := by decide

/-- An operand too wide for its byte (R71). -/
theorem test_wf_refuses_wide_byte : (Source.fits ⟨.lda, .zp, 0x100⟩ || Source.wf ⟨.lda, .zp, 0x100⟩) = false := by decide

/-- An operand too wide for its word (R71). -/
theorem test_wf_refuses_wide_word : Source.wf ⟨.jmp, .abs, 0x10000⟩ = false := by decide

/-- An operand where the mode has none (R71). -/
theorem test_wf_refuses_implied_operand : Source.wf ⟨.nop, .imp, 1⟩ = false := by decide

theorem test_wf_accepts : (Source.wf ⟨.lda, .zp, 0xFF⟩ && Source.wf ⟨.jmp, .ind, 0xFFFF⟩ && Source.wf ⟨.nop, .imp, 0⟩) = true := by
  decide

/-! ### Decoding: words written out from R74, operand bytes 34 and 12 (low byte first, R73) -/

theorem test_decode_loads_1 : decodeAll
    [([0xA9, 0x34], .ldaImm 0x34), ([0xA5, 0x34], .ldaZp 0x34), ([0xB5, 0x34], .ldaZpx 0x34),
    ([0xAD, 0x34, 0x12], .ldaAbs 0x1234), ([0xBD, 0x34, 0x12], .ldaAbx 0x1234),
    ([0xB9, 0x34, 0x12], .ldaAby 0x1234), ([0xA1, 0x34], .ldaIzx 0x34), ([0xB1, 0x34], .ldaIzy 0x34),
    ([0xA2, 0x34], .ldxImm 0x34), ([0xA6, 0x34], .ldxZp 0x34), ([0xB6, 0x34], .ldxZpy 0x34),
    ([0xAE, 0x34, 0x12], .ldxAbs 0x1234), ([0xBE, 0x34, 0x12], .ldxAby 0x1234), ([0xA0, 0x34], .ldyImm 0x34),
    ([0xA4, 0x34], .ldyZp 0x34), ([0xB4, 0x34], .ldyZpx 0x34)] = true := by decide

theorem test_decode_loads_2 : decodeAll
    [([0xAC, 0x34, 0x12], .ldyAbs 0x1234), ([0xBC, 0x34, 0x12], .ldyAbx 0x1234)] = true := by decide

theorem test_decode_stores : decodeAll
    [([0x85, 0x34], .staZp 0x34), ([0x95, 0x34], .staZpx 0x34), ([0x8D, 0x34, 0x12], .staAbs 0x1234),
    ([0x9D, 0x34, 0x12], .staAbx 0x1234), ([0x99, 0x34, 0x12], .staAby 0x1234), ([0x81, 0x34], .staIzx 0x34),
    ([0x91, 0x34], .staIzy 0x34), ([0x86, 0x34], .stxZp 0x34), ([0x96, 0x34], .stxZpy 0x34),
    ([0x8E, 0x34, 0x12], .stxAbs 0x1234), ([0x84, 0x34], .styZp 0x34), ([0x94, 0x34], .styZpx 0x34),
    ([0x8C, 0x34, 0x12], .styAbs 0x1234)] = true := by decide

theorem test_decode_logic_1 : decodeAll
    [([0x29, 0x34], .andImm 0x34), ([0x25, 0x34], .andZp 0x34), ([0x35, 0x34], .andZpx 0x34),
    ([0x2D, 0x34, 0x12], .andAbs 0x1234), ([0x3D, 0x34, 0x12], .andAbx 0x1234),
    ([0x39, 0x34, 0x12], .andAby 0x1234), ([0x21, 0x34], .andIzx 0x34), ([0x31, 0x34], .andIzy 0x34),
    ([0x09, 0x34], .oraImm 0x34), ([0x05, 0x34], .oraZp 0x34), ([0x15, 0x34], .oraZpx 0x34),
    ([0x0D, 0x34, 0x12], .oraAbs 0x1234), ([0x1D, 0x34, 0x12], .oraAbx 0x1234),
    ([0x19, 0x34, 0x12], .oraAby 0x1234), ([0x01, 0x34], .oraIzx 0x34), ([0x11, 0x34], .oraIzy 0x34)] = true := by decide

theorem test_decode_logic_2 : decodeAll
    [([0x49, 0x34], .eorImm 0x34), ([0x45, 0x34], .eorZp 0x34), ([0x55, 0x34], .eorZpx 0x34),
    ([0x4D, 0x34, 0x12], .eorAbs 0x1234), ([0x5D, 0x34, 0x12], .eorAbx 0x1234),
    ([0x59, 0x34, 0x12], .eorAby 0x1234), ([0x41, 0x34], .eorIzx 0x34), ([0x51, 0x34], .eorIzy 0x34),
    ([0x24, 0x34], .bitZp 0x34), ([0x2C, 0x34, 0x12], .bitAbs 0x1234)] = true := by decide

theorem test_decode_inc_dec : decodeAll
    [([0xE6, 0x34], .incZp 0x34), ([0xF6, 0x34], .incZpx 0x34), ([0xEE, 0x34, 0x12], .incAbs 0x1234),
    ([0xFE, 0x34, 0x12], .incAbx 0x1234), ([0xC6, 0x34], .decZp 0x34), ([0xD6, 0x34], .decZpx 0x34),
    ([0xCE, 0x34, 0x12], .decAbs 0x1234), ([0xDE, 0x34, 0x12], .decAbx 0x1234), ([0xE8], .inx), ([0xC8], .iny),
    ([0xCA], .dex), ([0x88], .dey)] = true := by decide

theorem test_decode_compares : decodeAll
    [([0xC9, 0x34], .cmpImm 0x34), ([0xC5, 0x34], .cmpZp 0x34), ([0xD5, 0x34], .cmpZpx 0x34),
    ([0xCD, 0x34, 0x12], .cmpAbs 0x1234), ([0xDD, 0x34, 0x12], .cmpAbx 0x1234),
    ([0xD9, 0x34, 0x12], .cmpAby 0x1234), ([0xC1, 0x34], .cmpIzx 0x34), ([0xD1, 0x34], .cmpIzy 0x34),
    ([0xE0, 0x34], .cpxImm 0x34), ([0xE4, 0x34], .cpxZp 0x34), ([0xEC, 0x34, 0x12], .cpxAbs 0x1234),
    ([0xC0, 0x34], .cpyImm 0x34), ([0xC4, 0x34], .cpyZp 0x34), ([0xCC, 0x34, 0x12], .cpyAbs 0x1234)] = true := by decide

theorem test_decode_add_sub : decodeAll
    [([0x69, 0x34], .adcImm 0x34), ([0x65, 0x34], .adcZp 0x34), ([0x75, 0x34], .adcZpx 0x34),
    ([0x6D, 0x34, 0x12], .adcAbs 0x1234), ([0x7D, 0x34, 0x12], .adcAbx 0x1234),
    ([0x79, 0x34, 0x12], .adcAby 0x1234), ([0x61, 0x34], .adcIzx 0x34), ([0x71, 0x34], .adcIzy 0x34),
    ([0xE9, 0x34], .sbcImm 0x34), ([0xE5, 0x34], .sbcZp 0x34), ([0xF5, 0x34], .sbcZpx 0x34),
    ([0xED, 0x34, 0x12], .sbcAbs 0x1234), ([0xFD, 0x34, 0x12], .sbcAbx 0x1234),
    ([0xF9, 0x34, 0x12], .sbcAby 0x1234), ([0xE1, 0x34], .sbcIzx 0x34), ([0xF1, 0x34], .sbcIzy 0x34)] = true := by decide

theorem test_decode_shifts_1 : decodeAll
    [([0x0A], .aslAcc), ([0x06, 0x34], .aslZp 0x34), ([0x16, 0x34], .aslZpx 0x34),
    ([0x0E, 0x34, 0x12], .aslAbs 0x1234), ([0x1E, 0x34, 0x12], .aslAbx 0x1234), ([0x4A], .lsrAcc),
    ([0x46, 0x34], .lsrZp 0x34), ([0x56, 0x34], .lsrZpx 0x34), ([0x4E, 0x34, 0x12], .lsrAbs 0x1234),
    ([0x5E, 0x34, 0x12], .lsrAbx 0x1234), ([0x2A], .rolAcc), ([0x26, 0x34], .rolZp 0x34),
    ([0x36, 0x34], .rolZpx 0x34), ([0x2E, 0x34, 0x12], .rolAbs 0x1234), ([0x3E, 0x34, 0x12], .rolAbx 0x1234),
    ([0x6A], .rorAcc)] = true := by decide

theorem test_decode_shifts_2 : decodeAll
    [([0x66, 0x34], .rorZp 0x34), ([0x76, 0x34], .rorZpx 0x34), ([0x6E, 0x34, 0x12], .rorAbs 0x1234),
    ([0x7E, 0x34, 0x12], .rorAbx 0x1234)] = true := by decide

theorem test_decode_stack : decodeAll
    [([0x48], .pha), ([0x08], .php), ([0x68], .pla), ([0x28], .plp)] = true := by decide

theorem test_decode_transfers : decodeAll
    [([0xAA], .tax), ([0xA8], .tay), ([0x8A], .txa), ([0x98], .tya), ([0xBA], .tsx), ([0x9A], .txs)] = true := by decide

theorem test_decode_flags : decodeAll
    [([0x18], .clc), ([0x38], .sec), ([0x58], .cli), ([0x78], .sei), ([0xD8], .cld), ([0xF8], .sed), ([0xB8], .clv),
    ([0xEA], .nop)] = true := by decide

theorem test_decode_control : decodeAll
    [([0x4C, 0x34, 0x12], .jmpAbs 0x1234), ([0x6C, 0x34, 0x12], .jmpInd 0x1234), ([0x20, 0x34, 0x12], .jsr 0x1234),
    ([0x60], .rts), ([0x00], .brk), ([0x40], .rti), ([0x90, 0x34], .bcc 0x34), ([0xB0, 0x34], .bcs 0x34),
    ([0xF0, 0x34], .beq 0x34), ([0xD0, 0x34], .bne 0x34), ([0x10, 0x34], .bpl 0x34), ([0x30, 0x34], .bmi 0x34),
    ([0x50, 0x34], .bvc 0x34), ([0x70, 0x34], .bvs 0x34)] = true := by decide

/-- An undefined byte is refused by name (R80), a string that ends inside an instruction as incomplete. -/
theorem test_decode_refuses : decode [0x02, 0x00] = .error (.unknownOpcode 0x02) ∧ decode [0xAD, 0x34] = .error .incomplete :=
  ⟨rfl, rfl⟩

/-- The table's bit numbering: the first byte of an instruction is bits 7..0. -/
theorem test_table_words : decodeTableWord 24 0x1234AD = some (.ldaAbs 0x1234) ∧ decodeTableWord 8 0xA9 = some (.ldaImm 0x00) ∧
    decodeTableWord 8 0xFF = none := by decide

/-- The next step after reset runs the word placed. -/
theorem test_fetch_word : leaves (State.reset.withFetchWord 16 0xFFA9)
    (fun t => t.ac == 0xFF && t.sr == 0x80 && t.pc == 0x0202 && t.cycles == 2) = true := by decide

/-! ### Single steps (file 95, T1 to T11) -/

theorem test_lda_zero_sets_z :
    leaves ((startAt 0x0200 [0xA9, 0x00]).setSr 0x80)
      (fun t => t.ac == 0x00 && t.sr == 0x02) = true := by decide

theorem test_lda_izy_wraps :
    leaves (((startAt 0x0200 [0xB1, 0x40]).withCells [(0x0001, 0x12), (0x0040, 0xFF), (0x0041, 0xFF)]).setYr 0x02)
      (fun t => t.ac == 0x12) = true := by decide

theorem test_ldx_absolute_y :
    leaves (((startAt 0x0200 [0xBE, 0x00, 0x20]).withCells [(0x2003, 0x7F)]).setYr 0x03)
      (fun t => t.xr == 0x7F && t.sr == 0x00) = true := by decide

theorem test_ldx_zero_page_y :
    leaves (((startAt 0x0200 [0xB6, 0x10]).withCells [(0x0015, 0x44)]).setYr 0x05)
      (fun t => t.xr == 0x44) = true := by decide

theorem test_ldy_absolute_x :
    leaves (((startAt 0x0200 [0xBC, 0x00, 0x20]).withCells [(0x2003, 0x80)]).setXr 0x03)
      (fun t => t.yr == 0x80 && t.sr == 0x80) = true := by decide

theorem test_sta_indirect_indexed :
    leaves ((((startAt 0x0200 [0x91, 0x40]).withCells [(0x0040, 0x00), (0x0041, 0x50)]).setAc 0xCD).setYr 0x01)
      (fun t => t.mem.read 0x5001 == 0xCD && t.sr == 0x00) = true := by decide

theorem test_sta_writes_no_flag :
    leaves ((((startAt 0x0200 [0x85, 0x10]).withCells [(0x0010, 0xFF)]).setAc 0x00).setSr 0x80)
      (fun t => t.mem.read 0x0010 == 0x00 && t.sr == 0x80) = true := by decide

theorem test_stx_zero_page_y :
    leaves (((startAt 0x0200 [0x96, 0x10]).setXr 0x12).setYr 0x02)
      (fun t => t.mem.read 0x0012 == 0x12) = true := by decide

theorem test_sty_zero_page_x :
    leaves (((startAt 0x0200 [0x94, 0x10]).setXr 0x02).setYr 0x34)
      (fun t => t.mem.read 0x0012 == 0x34) = true := by decide

theorem test_and_keeps_bit_seven :
    leaves ((startAt 0x0200 [0x29, 0x80]).setAc 0xFF)
      (fun t => t.ac == 0x80 && t.sr == 0x80) = true := by decide

theorem test_ora_sets_bit_seven :
    leaves ((startAt 0x0200 [0x09, 0x80]).setAc 0x01)
      (fun t => t.ac == 0x81 && t.sr == 0x80) = true := by decide

theorem test_eor_to_zero :
    leaves ((startAt 0x0200 [0x49, 0xFF]).setAc 0xFF)
      (fun t => t.ac == 0x00 && t.sr == 0x02) = true := by decide

theorem test_bit_flags :
    leaves (((startAt 0x0200 [0x24, 0x10]).withCells [(0x0010, 0xC0)]).setAc 0x01)
      (fun t => t.ac == 0x01 && t.sr == 0xC2) = true := by decide

theorem test_bit_clears_flags :
    leaves ((((startAt 0x0200 [0x24, 0x10]).withCells [(0x0010, 0x3F)]).setAc 0xFF).setSr 0xC2)
      (fun t => t.sr == 0x00) = true := by decide

theorem test_inc_wraps :
    leaves ((startAt 0x0200 [0xE6, 0x10]).withCells [(0x0010, 0xFF)])
      (fun t => t.mem.read 0x0010 == 0x00 && t.sr == 0x02) = true := by decide

theorem test_dec_wraps :
    leaves ((startAt 0x0200 [0xC6, 0x10]).withCells [(0x0010, 0x00)])
      (fun t => t.mem.read 0x0010 == 0xFF && t.sr == 0x80) = true := by decide

theorem test_inx_wraps :
    leaves ((startAt 0x0200 [0xE8]).setXr 0xFF)
      (fun t => t.xr == 0x00 && t.sr == 0x02) = true := by decide

theorem test_iny_to_negative :
    leaves ((startAt 0x0200 [0xC8]).setYr 0x7F)
      (fun t => t.yr == 0x80 && t.sr == 0x80) = true := by decide

theorem test_dex_wraps :
    leaves ((startAt 0x0200 [0xCA]).setXr 0x00)
      (fun t => t.xr == 0xFF && t.sr == 0x80) = true := by decide

theorem test_dey_to_zero :
    leaves ((startAt 0x0200 [0x88]).setYr 0x01)
      (fun t => t.yr == 0x00 && t.sr == 0x02) = true := by decide

theorem test_cmp_carry_and_negative :
    leaves ((startAt 0x0200 [0xC9, 0x10]).setAc 0xA0)
      (fun t => t.ac == 0xA0 && t.sr == 0x81) = true := by decide

theorem test_cmp_no_carry_no_negative :
    leaves ((startAt 0x0200 [0xC9, 0xA0]).setAc 0x10)
      (fun t => t.sr == 0x00) = true := by decide

theorem test_cpx_less :
    leaves (((startAt 0x0200 [0xE4, 0x10]).withCells [(0x0010, 0x06)]).setXr 0x05)
      (fun t => t.xr == 0x05 && t.sr == 0x80) = true := by decide

theorem test_cpy_greater :
    leaves ((startAt 0x0200 [0xC0, 0x00]).setYr 0xFF)
      (fun t => t.yr == 0xFF && t.sr == 0x81) = true := by decide

theorem test_adc_overflow_and_carry :
    leaves (((startAt 0x0200 [0x69, 0xFF]).setAc 0x80).setSr 0x00)
      (fun t => t.ac == 0x7F && t.sr == 0x41) = true := by decide

theorem test_adc_decimal :
    leaves (((startAt 0x0200 [0x69, 0x46]).setAc 0x58).setSr 0x09)
      (fun t => t.ac == 0x05 && t.sr == 0xC9) = true := by decide

theorem test_sbc_overflow_no_carry :
    leaves (((startAt 0x0200 [0xE9, 0xB0]).setAc 0x50).setSr 0x01)
      (fun t => t.ac == 0xA0 && t.sr == 0xC0) = true := by decide

theorem test_sbc_decimal_reuses_adder :
    leaves (((startAt 0x0200 [0xE9, 0x25]).setAc 0x50).setSr 0x09)
      (fun t => t.ac == 0x91 && t.sr == 0x09) = true := by decide

theorem test_asl_ignores_carry :
    leaves (((startAt 0x0200 [0x0A]).setAc 0x01).setSr 0x01)
      (fun t => t.ac == 0x02 && t.sr == 0x00) = true := by decide

theorem test_asl_memory :
    leaves ((startAt 0x0200 [0x06, 0x10]).withCells [(0x0010, 0x40)])
      (fun t => t.mem.read 0x0010 == 0x80 && t.sr == 0x80) = true := by decide

theorem test_lsr_clears_n :
    leaves (((startAt 0x0200 [0x4A]).setAc 0xFF).setSr 0x80)
      (fun t => t.ac == 0x7F && t.sr == 0x01) = true := by decide

theorem test_lsr_memory :
    leaves ((startAt 0x0200 [0x46, 0x10]).withCells [(0x0010, 0x03)])
      (fun t => t.mem.read 0x0010 == 0x01 && t.sr == 0x01) = true := by decide

theorem test_rol_through_carry :
    leaves (((startAt 0x0200 [0x2A]).setAc 0x80).setSr 0x01)
      (fun t => t.ac == 0x01 && t.sr == 0x01) = true := by decide

theorem test_rol_memory :
    leaves ((startAt 0x0200 [0x2E, 0x00, 0x30]).withCells [(0x3000, 0x40)])
      (fun t => t.mem.read 0x3000 == 0x80 && t.sr == 0x80) = true := by decide

theorem test_ror_through_carry :
    leaves (((startAt 0x0200 [0x6A]).setAc 0x01).setSr 0x01)
      (fun t => t.ac == 0x80 && t.sr == 0x81) = true := by decide

theorem test_ror_memory :
    leaves (((startAt 0x0200 [0x76, 0x10]).withCells [(0x0011, 0x02)]).setXr 0x01)
      (fun t => t.mem.read 0x0011 == 0x01 && t.sr == 0x00) = true := by decide

theorem test_pha_wraps :
    leaves (((startAt 0x0200 [0x48]).setAc 0x42).setSp 0x00)
      (fun t => t.mem.read 0x0100 == 0x42 && t.sp == 0xFF) = true := by decide

theorem test_pla_wraps :
    leaves ((((startAt 0x0200 [0x68]).withCells [(0x0100, 0x00)]).setAc 0x55).setSp 0xFF)
      (fun t => t.ac == 0x00 && t.sp == 0x00) = true := by decide

theorem test_php_mask :
    leaves (((startAt 0x0200 [0x08]).setSr 0xC3).withCfg phpMask)
      (fun t => t.mem.read 0x01FF == 0xF3 && t.sr == 0xC3) = true := by decide

theorem test_plp_loads_all :
    leaves (((startAt 0x0200 [0x28]).withCells [(0x01FF, 0xFF)]).setSp 0xFE)
      (fun t => t.sr == 0xFF && t.sp == 0xFF) = true := by decide

theorem test_tax :
    leaves ((startAt 0x0200 [0xAA]).setAc 0x80)
      (fun t => t.xr == 0x80 && t.sr == 0x80) = true := by decide

theorem test_tay_zero :
    leaves (((startAt 0x0200 [0xA8]).setAc 0x00).setYr 0x11)
      (fun t => t.yr == 0x00 && t.sr == 0x02) = true := by decide

theorem test_txa_clears_n :
    leaves ((((startAt 0x0200 [0x8A]).setAc 0xFF).setXr 0x7F).setSr 0x80)
      (fun t => t.ac == 0x7F && t.sr == 0x00) = true := by decide

theorem test_tya_zero :
    leaves (((startAt 0x0200 [0x98]).setAc 0x01).setYr 0x00)
      (fun t => t.ac == 0x00 && t.sr == 0x02) = true := by decide

theorem test_tsx_sets_n :
    leaves ((startAt 0x0200 [0xBA]).setSp 0xFF)
      (fun t => t.xr == 0xFF && t.sr == 0x80) = true := by decide

theorem test_txs_writes_no_flag :
    leaves (((startAt 0x0200 [0x9A]).setXr 0x00).setSr 0x80)
      (fun t => t.sp == 0x00 && t.sr == 0x80) = true := by decide

theorem test_clc :
    leaves ((startAt 0x0200 [0x18]).setSr 0xFF)
      (fun t => t.sr == 0xFE) = true := by decide

theorem test_sec :
    leaves ((startAt 0x0200 [0x38]).setSr 0x00)
      (fun t => t.sr == 0x01) = true := by decide

theorem test_cli :
    leaves ((startAt 0x0200 [0x58]).setSr 0xFF)
      (fun t => t.sr == 0xFB) = true := by decide

theorem test_sei :
    leaves ((startAt 0x0200 [0x78]).setSr 0x00)
      (fun t => t.sr == 0x04) = true := by decide

theorem test_cld :
    leaves ((startAt 0x0200 [0xD8]).setSr 0xFF)
      (fun t => t.sr == 0xF7) = true := by decide

theorem test_sed :
    leaves ((startAt 0x0200 [0xF8]).setSr 0x00)
      (fun t => t.sr == 0x08) = true := by decide

theorem test_clv :
    leaves ((startAt 0x0200 [0xB8]).setSr 0xFF)
      (fun t => t.sr == 0xBF) = true := by decide

theorem test_nop :
    leaves (((startAt 0x0200 [0xEA]).setAc 0x12).setSr 0xA5)
      (fun t => t.ac == 0x12 && t.sr == 0xA5 && t.pc == 0x0201 && t.cycles == 2) = true := by decide

theorem test_jmp_page_bug :
    leaves (((startAt 0x0200 [0x6C, 0xFF, 0x30]).withCells [(0x3000, 0x12), (0x30FF, 0x34), (0x3100, 0x56)]).withCfg Config.default)
      (fun t => t.pc == 0x1234) = true := by decide

theorem test_jmp_no_page_bug :
    leaves (((startAt 0x0200 [0x6C, 0xFF, 0x30]).withCells [(0x3000, 0x12), (0x30FF, 0x34), (0x3100, 0x56)]).withCfg noCompat)
      (fun t => t.pc == 0x5634) = true := by decide

theorem test_jsr_stack_wraps :
    leaves ((startAt 0x0200 [0x20, 0x00, 0x03]).setSp 0x00)
      (fun t => t.mem.read 0x0100 == 0x02 && t.mem.read 0x01FF == 0x02 && t.sp == 0xFE && t.pc == 0x0300) = true := by decide

theorem test_jsr_at_the_top :
    leaves (startAt 0xFFFD [0x20, 0x00, 0x03])
      (fun t => t.mem.read 0x01FE == 0xFF && t.mem.read 0x01FF == 0xFF && t.pc == 0x0300) = true := by decide

theorem test_rts_wraps :
    leaves (((startAt 0x0200 [0x60]).withCells [(0x01FE, 0xFF), (0x01FF, 0xFF)]).setSp 0xFD)
      (fun t => t.pc == 0x0000 && t.sp == 0xFF) = true := by decide

theorem test_brk_pushes_new_status :
    leaves (((startAt 0x0200 [0x00]).withCells [(0xFFFE, 0x34), (0xFFFF, 0x12)]).setSr 0xC3)
      (fun t => t.mem.read 0x01FD == 0xD7 && t.mem.read 0x01FE == 0x02 && t.mem.read 0x01FF == 0x02 && t.sr == 0xD7 && t.pc == 0x1234) = true := by decide

theorem test_brk_stack_wraps :
    leaves (((startAt 0x0200 [0x00]).withCells [(0xFFFE, 0x00), (0xFFFF, 0x80)]).setSp 0x01)
      (fun t => t.mem.read 0x0100 == 0x02 && t.mem.read 0x0101 == 0x02 && t.mem.read 0x01FF == 0x14 && t.sp == 0xFE) = true := by decide

theorem test_rti :
    leaves (((startAt 0x0200 [0x40]).withCells [(0x01FD, 0xC3), (0x01FE, 0x02), (0x01FF, 0x02)]).setSp 0xFC)
      (fun t => t.sr == 0xC3 && t.pc == 0x0202) = true := by decide

theorem test_bcc_flag_clear :
    leaves ((startAt 0x0200 [0x90, 0x10]).setSr 0x00)
      (fun t => t.pc == 0x0212) = true := by decide

theorem test_bcc_flag_set :
    leaves ((startAt 0x0200 [0x90, 0x10]).setSr 0x01)
      (fun t => t.pc == 0x0202) = true := by decide

theorem test_bcs_flag_clear :
    leaves ((startAt 0x0200 [0xB0, 0x10]).setSr 0x00)
      (fun t => t.pc == 0x0202) = true := by decide

theorem test_bcs_flag_set :
    leaves ((startAt 0x0200 [0xB0, 0x10]).setSr 0x01)
      (fun t => t.pc == 0x0212) = true := by decide

theorem test_beq_flag_clear :
    leaves ((startAt 0x0200 [0xF0, 0x10]).setSr 0x00)
      (fun t => t.pc == 0x0202) = true := by decide

theorem test_beq_flag_set :
    leaves ((startAt 0x0200 [0xF0, 0x10]).setSr 0x02)
      (fun t => t.pc == 0x0212) = true := by decide

theorem test_bne_flag_clear :
    leaves ((startAt 0x0200 [0xD0, 0x10]).setSr 0x00)
      (fun t => t.pc == 0x0212) = true := by decide

theorem test_bpl_flag_clear :
    leaves ((startAt 0x0200 [0x10, 0x10]).setSr 0x00)
      (fun t => t.pc == 0x0212) = true := by decide

theorem test_bmi_flag_clear :
    leaves ((startAt 0x0200 [0x30, 0x10]).setSr 0x00)
      (fun t => t.pc == 0x0202) = true := by decide

theorem test_bmi_flag_set :
    leaves ((startAt 0x0200 [0x30, 0x10]).setSr 0x80)
      (fun t => t.pc == 0x0212) = true := by decide

theorem test_bvc_flag_clear :
    leaves ((startAt 0x0200 [0x50, 0x10]).setSr 0x00)
      (fun t => t.pc == 0x0212) = true := by decide

theorem test_bvc_flag_set :
    leaves ((startAt 0x0200 [0x50, 0x10]).setSr 0x40)
      (fun t => t.pc == 0x0202) = true := by decide

theorem test_bvs_flag_clear :
    leaves ((startAt 0x0200 [0x70, 0x10]).setSr 0x00)
      (fun t => t.pc == 0x0202) = true := by decide

theorem test_bvs_flag_set :
    leaves ((startAt 0x0200 [0x70, 0x10]).setSr 0x40)
      (fun t => t.pc == 0x0212) = true := by decide

theorem test_bne_wraps_up :
    leaves (startAt 0xFFF0 [0xD0, 0x20])
      (fun t => t.pc == 0x0012) = true := by decide

theorem test_fetch_wraps :
    leaves ((startAt 0xFFFF [0xA9]).withCells [(0x0000, 0x5A)])
      (fun t => t.ac == 0x5A && t.pc == 0x0001) = true := by decide

theorem test_undefined_opcode :
    faults (startAt 0x0200 [0x80, 0x00])
      (fun t => t.pc == 0x0201 && t.cycles == 0) = true := by decide

theorem test_index_overflow_faults :
    faults (((startAt 0x0200 [0xF6, 0xFF]).withCells [(0x0000, 0x05)]).setXr 0x01)
      (fun t => t.pc == 0x0202 && t.mem.read 0x0000 == 0x05) = true := by decide

/-! ### Intercept handlers (file 95, T12) -/

/-- H1: answers 8D to reads of C000, intercepts writes of C010. -/
def handlerH1 : Handler := ⟨0, .table [(0xC000, 0x8D)] [0xC010]⟩

/-- H2: answers 00 to reads of C000. -/
def handlerH2 : Handler := ⟨1, .table [(0xC000, 0x00)] []⟩

/-- H3: answers E8 to reads of 0200. -/
def handlerH3 : Handler := ⟨2, .table [(0x0200, 0xE8)] []⟩

theorem test_read_intercepted :
    leaves (((startAt 0x0200 [0xAD, 0x00, 0xC0]).withCells [(0xC000, 0x11)]).setHandlers [handlerH1])
      (fun t => t.ac == 0x8D && t.sr == 0x80 && t.mem.read 0xC000 == 0x11) = true := by decide

theorem test_last_defined_result_wins :
    leaves (((startAt 0x0200 [0xAD, 0x00, 0xC0]).withCells [(0xC000, 0x11)]).setHandlers [handlerH1, handlerH2])
      (fun t => t.ac == 0x00 && t.sr == 0x02) = true := by decide

theorem test_handler_order_matters :
    leaves (((startAt 0x0200 [0xAD, 0x00, 0xC0]).withCells [(0xC000, 0x11)]).setHandlers [handlerH2, handlerH1])
      (fun t => t.ac == 0x8D && t.sr == 0x80) = true := by decide

theorem test_write_intercepted :
    leaves ((((startAt 0x0200 [0x8D, 0x10, 0xC0]).withCells [(0xC010, 0x22)]).setHandlers [handlerH1]).setAc 0x7F)
      (fun t => t.mem.read 0xC010 == 0x22 && t.pc == 0x0203) = true := by decide

theorem test_write_not_intercepted :
    leaves ((((startAt 0x0200 [0x8D, 0x11, 0xC0]).withCells [(0xC011, 0x22)]).setHandlers [handlerH1]).setAc 0x7F)
      (fun t => t.mem.read 0xC011 == 0x7F) = true := by decide

theorem test_modify_on_intercepted_read :
    leaves (((startAt 0x0200 [0xEE, 0x00, 0xC0]).withCells [(0xC000, 0x11)]).setHandlers [handlerH1])
      (fun t => t.mem.read 0xC000 == 0x8E && t.sr == 0x80) = true := by decide

theorem test_fetch_goes_through_the_chain :
    leaves ((startAt 0x0200 [0xEA]).setHandlers [handlerH3])
      (fun t => t.xr == 0x01 && t.pc == 0x0201 && t.mem.read 0x0200 == 0xEA) = true := by decide

/-- A host write out of range faults with the value and leaves memory alone (R243). -/
theorem test_host_write_range :
    (match memWriteByte 0x0010 256 (startAt 0x0200 [0xEA]) with
      | .fault (.invalidWrite 0x0010 256 t) => t.mem.read 0x0010 == 0x00
      | _ => false) = true := by decide

/-! ### A witness for every obligation that has hypotheses: a state and operands that meet all of them, and one for each
clause at a boundary of its range. The theorem is named after the obligation. -/

/-- The state after a step, the same state when it answers none. -/
def after (s : State) : State :=
  match step s with
  | .next t => t
  | _ => s

/-- A state whose next step runs NOP. -/
def nopState : State := startAt 0x0200 [0xEA]

/-- A state whose next step faults: LDA zp,X with operand plus X = 0x100. -/
def indexFaultState : State := (startAt 0x0200 [0xB5, 0xFF]).setXr 0x01

/-- A state whose next step runs JSR 0x0300, with an RTS there. -/
def jsrState : State := (startAt 0x0200 [0x20, 0x00, 0x03]).withCells [(0x0300, 0x60)]

/-- A state whose next step runs BRK, with an RTI at the handler's address. -/
def brkState : State := (startAt 0x0200 [0x00]).withCells [(0x8000, 0x40), (0xFFFE, 0x00), (0xFFFF, 0x80)]

/-- A state whose next step runs STA 0x0203, the cell after it, with the opcode of INX in the accumulator. -/
def selfModifyingState : State := (startAt 0x0200 [0x8D, 0x03, 0x02]).setAc 0xE8

theorem witness_SetZeroNegative : Flag.C ≠ .Z ∧ Flag.C ≠ .N := by decide

theorem witness_LastDefinedAnswerWins : chainRead [] 0 0xC000 = none ∧
    handlerH1.onRead (0 + [handlerH2].length) 0xC000 = some 0x8D ∧
    handlerH2.onRead (0 + [handlerH1].length) 0xC001 = none := by decide

theorem witness_BusReadAndWriteEffect :
    chainRead (nopState.setHandlers [handlerH1]).handlers nopState.draws 0xC000 = some 0x8D ∧
    chainRead nopState.handlers nopState.draws 0xC000 = none ∧ nopState.Inv :=
  ⟨by decide, by decide, by unfold State.Inv; decide⟩

theorem witness_HostWriteRangeChecked :
    (nopState.setHandlers [handlerH1]).intercepts 0xC010 (BitVec.ofInt 8 256) = true ∧
    (nopState.intercepts 0x0010 (BitVec.ofInt 8 256) = false ∧ ¬ ((0 : Int) ≤ 256 ∧ (256 : Int) ≤ 255)) ∧
    (nopState.intercepts 0x0010 (BitVec.ofInt 8 (-1)) = false ∧ ¬ ((0 : Int) ≤ -1 ∧ (-1 : Int) ≤ 255)) ∧
    ¬ ((0 : Int) ≤ 65536 ∧ (65536 : Int) ≤ 65535) := by decide

theorem witness_DecodeEncodeRoundTrip : (Instr.jmpAbs 0xFFFF).wf = true ∧ (Instr.ldaImm 0x00).wf = true ∧
    decode [0x4C, 0xFF, 0xFF, 0xEA] = .ok (.jmpAbs 0xFFFF, [0xEA]) :=
  ⟨by decide, by decide, rfl⟩

theorem witness_BaseCyclesByClass :
    (Instr.bitAbs 0x0010).mnemonic ∈ [Mnemonic.lda, .ldx, .ldy, .and, .ora, .eor, .adc, .sbc, .cmp, .cpx, .cpy, .bit] ∧
    (Instr.staIzy 0x10).mnemonic ∈ [Mnemonic.sta, .stx, .sty] ∧
    Instr.rorAcc.mnemonic ∈ [Mnemonic.inc, .dec, .asl, .lsr, .rol, .ror] ∧
    Instr.nop.mnemonic ∈ [Mnemonic.clv, .nop] ∧ Instr.pha.mnemonic ∈ [Mnemonic.pha, .php] ∧
    Instr.plp.mnemonic ∈ [Mnemonic.pla, .plp] ∧ (Instr.jmpInd 0x30FF).mnemonic = .jmp ∧
    Instr.rti.mnemonic ∈ [Mnemonic.jsr, .rts, .rti] ∧ Instr.brk.mnemonic = .brk ∧
    (Instr.bvs 0x80).mnemonic ∈ [Mnemonic.bvc, .bvs] := by decide

/-- The sum 0xFF is the last that does not overflow, 0x100 the first that does. -/
theorem witness_ResolverDirectModes :
    (Operand.zpx 0x80 = .zpx 0x80 ∧ (0x7F : Byte) = (nopState.setXr 0x7F).xr ∧
      (0x80 : Byte).toNat + (0x7F : Byte).toNat ≤ 0xFF) ∧
    (Operand.zpy 0x80 = .zpy 0x80 ∧ (0x80 : Byte) = (nopState.setYr 0x80).yr ∧
      0xFF < (0x80 : Byte).toNat + (0x80 : Byte).toNat ∧ (nopState.setYr 0x80).cfg.zpIndexOverflow = .fault) ∧
    ((0x80 : Byte) = ((nopState.withCfg wrapping).setXr 0x80).xr ∧
      ((nopState.withCfg wrapping).setXr 0x80).cfg.zpIndexOverflow = .wrap) := by decide

theorem witness_ResolverAbsoluteIndirect :
    (nopState.cfg.compat = true ∧ (0x30FF : Word).toNat % 256 = 255) ∧
    ¬ (nopState.cfg.compat = true ∧ (0x30FE : Word).toNat % 256 = 255) ∧
    ¬ ((nopState.withCfg noCompat).cfg.compat = true ∧ (0x30FF : Word).toNat % 256 = 255) := by decide

theorem witness_ResolverZeroPagePointers :
    ((0xFE : Byte).toNat < 255 ∨ nopState.cfg.zpPtrWrap = false) ∧
    ((0xFF : Byte).toNat < 255 ∨ nopState.cfg.zpPtrWrap = false) ∧
    ((0xFF : Byte).toNat = 255 ∧ (nopState.withCfg pointerWraps).cfg.zpPtrWrap = true) := by decide

theorem witness_ResolverChangesNothing :
    Operand.ea (.zpx 0xFE) indexFaultState = .ok (0x00FF, indexFaultState) ∧
    Operand.ea (.zpx 0xFF) indexFaultState = .error (.addressRangeViolation 0x100 indexFaultState) ∧
    (∀ b, Operand.zpx 0xFE ≠ .imm b) ∧
    operandOf (.ldaZpx 0xFE) = some (.zpx 0xFE) ∧ ¬ IndexFaults (.ldaZpx 0xFE) indexFaultState :=
  ⟨rfl, rfl, (fun _ h => by cases h), rfl, by unfold IndexFaults; decide⟩

theorem witness_LoadsSetRegister :
    (ReadsByte (.ldaImm 0xFF) nopState 0xFF ∧ (Instr.ldaImm 0xFF).mnemonic = .lda) ∧
    (ReadsByte (.ldxZpy 0xFF) nopState 0x00 ∧ (Instr.ldxZpy 0xFF).mnemonic = .ldx) ∧
    (ReadsByte (.ldyAbx 0x0200) nopState 0xEA ∧ (Instr.ldyAbx 0x0200).mnemonic = .ldy) :=
  ⟨⟨⟨_, _, rfl, rfl⟩, rfl⟩, ⟨⟨_, _, rfl, rfl⟩, rfl⟩, ⟨⟨_, _, rfl, rfl⟩, rfl⟩⟩

theorem witness_StoresWriteRegister : ∃ u v w : State,
    (ResolvesTo (.staIzy 0x10) nopState 0x0000 u ∧ (Instr.staIzy 0x10).mnemonic = .sta ∧ nopState.ac = nopState.ac) ∧
    (ResolvesTo (.stxZpy 0xFF) nopState 0x00FF v ∧ (Instr.stxZpy 0xFF).mnemonic = .stx) ∧
    (ResolvesTo (.styAbs 0xFFFF) nopState 0xFFFF w ∧ (Instr.styAbs 0xFFFF).mnemonic = .sty) ∧ nopState.Inv :=
  ⟨_, _, _, ⟨⟨_, rfl, rfl⟩, rfl, rfl⟩, ⟨⟨_, rfl, rfl⟩, rfl⟩, ⟨⟨_, rfl, rfl⟩, rfl⟩, rfl⟩

theorem witness_LogicCombinesAccumulator :
    (ReadsByte (.andImm 0x0F) nopState 0x0F ∧ (Instr.andImm 0x0F).mnemonic = .and ∧
      (0x00 : Byte) = nopState.ac &&& 0x0F) ∧
    (ReadsByte (.oraIzx 0xFF) nopState 0x00 ∧ (Instr.oraIzx 0xFF).mnemonic = .ora ∧
      (0x00 : Byte) = nopState.ac ||| 0x00) ∧
    (ReadsByte (.eorAbs 0x0200) nopState 0xEA ∧ (Instr.eorAbs 0x0200).mnemonic = .eor ∧
      (0xEA : Byte) = nopState.ac ^^^ 0xEA) :=
  ⟨⟨⟨_, _, rfl, rfl⟩, rfl, rfl⟩, ⟨⟨_, _, rfl, rfl⟩, rfl, rfl⟩, ⟨⟨_, _, rfl, rfl⟩, rfl, rfl⟩⟩

theorem witness_BitTestsOperand : ReadsByte (.bitAbs 0x0200) nopState 0xEA ∧ (Instr.bitAbs 0x0200).mnemonic = .bit :=
  ⟨⟨_, _, rfl, rfl⟩, rfl⟩

/-- The cell 0x0010 holds 0x00: DEC wraps. -/
theorem witness_IncDecMemory :
    (ResolvesTo (.incAbx 0x0200) nopState 0x0200 nopState ∧ (Instr.incAbx 0x0200).mnemonic = .inc ∧
      (0xEB : Byte).toNat = ((nopState.peek 0x0200).toNat + 1) % 256) ∧
    (ResolvesTo (.decZp 0x10) nopState 0x0010 nopState ∧ (Instr.decZp 0x10).mnemonic = .dec ∧
      (0xFF : Byte).toNat = ((nopState.peek 0x0010).toNat + 255) % 256) ∧ nopState.Inv :=
  ⟨⟨⟨_, rfl, rfl⟩, rfl, by decide⟩, ⟨⟨_, rfl, rfl⟩, rfl, by decide⟩, rfl⟩

theorem witness_ComparesReportDifference :
    (ReadsByte (.cmpImm 0x00) nopState 0x00 ∧ (Instr.cmpImm 0x00).mnemonic = .cmp ∧ (0x00 : Byte) = nopState.ac) ∧
    (ReadsByte (.cpxAbs 0x0200) nopState 0xEA ∧ (Instr.cpxAbs 0x0200).mnemonic = .cpx ∧ (0x00 : Byte) = nopState.xr) ∧
    (ReadsByte (.cpyZp 0xFF) nopState 0x00 ∧ (Instr.cpyZp 0xFF).mnemonic = .cpy ∧ (0x00 : Byte) = nopState.yr) :=
  ⟨⟨⟨_, _, rfl, rfl⟩, rfl, rfl⟩, ⟨⟨_, _, rfl, rfl⟩, rfl, rfl⟩, ⟨⟨_, _, rfl, rfl⟩, rfl, rfl⟩⟩

theorem witness_AdcBinary :
    ReadsByte (.adcImm 0x80) nopState 0x80 ∧ (Instr.adcImm 0x80).mnemonic = .adc ∧ nopState.flag .D = false :=
  ⟨⟨_, _, rfl, rfl⟩, rfl, rfl⟩

theorem witness_SbcBinary :
    ReadsByte (.sbcIzy 0x10) nopState 0x00 ∧ (Instr.sbcIzy 0x10).mnemonic = .sbc ∧ nopState.flag .D = false :=
  ⟨⟨_, _, rfl, rfl⟩, rfl, rfl⟩

/-- 0x58 + 0x46 + 1 (a BCD pair, both settings of the carry parameter) and 0x50 - 0x25 (file 95, T7). -/
theorem witness_DecimalAddAndSubtract :
    (ReadsByte (.adcImm 0x46) decimalState 0x46 ∧ decimalState.flag .D = true ∧ (Instr.adcImm 0x46).mnemonic = .adc ∧
      70 = (0x46 : Byte).toNat ∧ 1 = (if decimalState.flag .C then 1 else 0) ∧
      21 = (if 9 < decimalState.ac.toNat % 16 + 70 % 16 + 1 then decimalState.ac.toNat % 16 + 70 % 16 + 1 + 6
        else decimalState.ac.toNat % 16 + 70 % 16 + 1) ∧
      160 = 16 * (decimalState.ac.toNat / 16 + 70 / 16 + (if 15 < 21 then 1 else 0)) ∧
      256 = (if 0x90 < 160 then 160 + 0x60 else 160)) ∧
    (ReadsByte (.sbcImm 0x25) decimalState 0x25 ∧ (Instr.sbcImm 0x25).mnemonic = .sbc ∧ 218 = 255 - (0x25 : Byte).toNat) ∧
    decimalState.cfg.decCarry = .decimal ∧ (decimalState.withCfg binaryCarry).cfg.decCarry = .binarySum :=
  ⟨⟨⟨_, _, rfl, rfl⟩, rfl, rfl, rfl, rfl, rfl, rfl, rfl⟩, ⟨⟨_, _, rfl, rfl⟩, rfl, rfl⟩, rfl, rfl⟩

theorem witness_DecimalAdcAddsBcdNumbers :
    ReadsByte (.adcImm 0x99) (decimalState.setSr 0x08) 0x99 ∧ (Instr.adcImm 0x99).mnemonic = .adc ∧
    (decimalState.setSr 0x08).flag .D = true ∧ (decimalState.setSr 0x08).flag .C = false ∧
    (decimalState.setSr 0x08).cfg.decCarry = .decimal ∧ IsBcd (decimalState.setSr 0x08).ac ∧ IsBcd 0x99 :=
  ⟨⟨_, _, rfl, rfl⟩, rfl, rfl, rfl, rfl, ⟨by decide, by decide⟩, ⟨by decide, by decide⟩⟩

theorem witness_ShiftAccumulator : (Instr.rorAcc, ShiftOp.ror) ∈
    [(Instr.aslAcc, ShiftOp.asl), (.lsrAcc, .lsr), (.rolAcc, .rol), (.rorAcc, .ror)] := by decide

theorem witness_ShiftMemory : ResolvesTo (.rolAbs 0x0200) nopState 0x0200 nopState ∧
    ((Instr.rolAbs 0x0200).mnemonic, ShiftOp.rol) ∈
      [(Mnemonic.asl, ShiftOp.asl), (.lsr, .lsr), (.rol, .rol), (.ror, .ror)] ∧
    (0xD4 : Byte) = ShiftOp.rol.result (nopState.peek 0x0200) (nopState.flag .C) ∧ nopState.Inv :=
  ⟨⟨_, rfl, rfl⟩, by decide, by decide, rfl⟩

theorem witness_PushStoresBelowTop : (nopState.setSp 0x00).Inv := rfl

theorem witness_StackRoundTrip : (nopState.setSp 0x00).Inv ∧ (nopState.setSp 0x00).Unintercepted (stackAddr 0x00) ∧
    (nopState.setSp 0x00).Unintercepted (stackAddr (0x00 - 1)) :=
  ⟨rfl, State.unintercepted_of_empty rfl _, State.unintercepted_of_empty rfl _⟩

theorem witness_StackInstructions : (nopState.setSp 0x00).Inv := rfl

theorem witness_FlagInstructionsWriteOneBit : (Instr.clv, Flag.V, false) ∈
    [(Instr.clc, Flag.C, false), (.sec, .C, true), (.cli, .I, false), (.sei, .I, true),
      (.cld, .D, false), (.sed, .D, true), (.clv, .V, false)] := by decide

theorem witness_JumpSetsPc : ∃ u : State, (ResolvesTo (.jmpAbs 0xFFFF) nopState 0xFFFF nopState ∧
    (Instr.jmpAbs 0xFFFF).mnemonic = .jmp) ∧ ResolvesTo (.jmpInd 0x30FF) nopState 0x0000 u ∧
    (Instr.jmpInd 0x30FF).mnemonic = .jmp :=
  ⟨_, ⟨⟨_, rfl, rfl⟩, rfl⟩, ⟨_, rfl, rfl⟩, rfl⟩

theorem witness_JsrPushesThenJumps : (jsrState.fetched 1).Inv ∧
    (jsrState.fetched 1).Unintercepted 0x0201 ∧ (jsrState.fetched 1).Unintercepted 0x0202 ∧
    (0x0201 : Word) ∉ [stackAddr (jsrState.fetched 1).sp, stackAddr ((jsrState.fetched 1).sp - 1)] ∧
    (0x0202 : Word) ∉ [stackAddr (jsrState.fetched 1).sp, stackAddr ((jsrState.fetched 1).sp - 1)] ∧
    (jsrState.fetched 1).pc = 0x0201 ∧
    (jsrState.fetched 1).mem.read 0x0201 = BitVec.ofNat 8 ((0x0300 : Word).toNat % 256) ∧
    (jsrState.fetched 1).mem.read 0x0202 = BitVec.ofNat 8 ((0x0300 : Word).toNat / 256) :=
  ⟨rfl, State.unintercepted_of_empty rfl _, State.unintercepted_of_empty rfl _, by decide, by decide, by decide, by decide,
    by decide⟩

theorem witness_BrkTakesTrap : (brkState.fetched 1).Inv := rfl

theorem witness_BranchesTestOneFlag : (Instr.beq 0x80, Flag.Z, true) ∈
    [(Instr.bpl 0x80, Flag.N, false), (.bmi 0x80, .N, true), (.bvc 0x80, .V, false), (.bvs 0x80, .V, true),
      (.bcc 0x80, .C, false), (.bcs 0x80, .C, true), (.bne 0x80, .Z, false), (.beq 0x80, .Z, true)] ∧
    (nopState.setSr 0x02).flag .Z = true ∧ nopState.flag .Z ≠ true := by decide

theorem witness_JsrThenRtsReturns : jsrState.Inv ∧ jsrState.fetchedInstr = some (.jsr 0x0300) ∧
    step jsrState = .next (after jsrState) ∧
    jsrState.Unintercepted (stackAddr jsrState.sp) ∧ jsrState.Unintercepted (stackAddr (jsrState.sp - 1)) ∧
    (after jsrState).Unintercepted (stackAddr jsrState.sp) ∧ (after jsrState).Unintercepted (stackAddr (jsrState.sp - 1)) ∧
    (after jsrState).fetchedInstr = some .rts :=
  ⟨rfl, by decide, rfl, State.unintercepted_of_empty rfl _, State.unintercepted_of_empty rfl _,
    State.unintercepted_of_empty rfl _, State.unintercepted_of_empty rfl _, by decide⟩

theorem witness_BrkThenRtiReturns : brkState.Inv ∧ brkState.fetchedInstr = some .brk ∧
    step brkState = .next (after brkState) ∧
    (∀ k, brkState.Unintercepted (stackAddr k) ∧ (after brkState).Unintercepted (stackAddr k)) ∧
    (after brkState).fetchedInstr = some .rti :=
  ⟨rfl, by decide, rfl, fun _ => ⟨State.unintercepted_of_empty rfl _, State.unintercepted_of_empty rfl _⟩, by decide⟩

theorem witness_StepRunsDecodedInstruction : ∃ rest : List Byte,
    decode jsrState.codeBytes = .ok (.jsr 0x0300, rest) ∧ 1 = (if (Instr.jsr 0x0300).mnemonic = .jsr then 1 else 3) ∧
    decode nopState.codeBytes = .ok (.nop, [0x00, 0x00]) :=
  ⟨_, rfl, rfl, rfl⟩

theorem witness_UndefinedOpcodeFaults : ∃ u : State, (startAt 0x0200 [0xFF]).peek 0x0200 ∈ undefinedOpcodes ∧
    step (startAt 0x0200 [0xFF]) = .fault (.unknownOpcode 0xFF 0x0200 u) :=
  ⟨_, by decide, rfl⟩

theorem witness_IndexOverflowFaults : ∃ u : State, indexFaultState.fetchedInstr = some (.ldaZpx 0xFF) ∧
    step indexFaultState = .fault (.addressRangeViolation 0x100 u) :=
  ⟨_, by decide, rfl⟩

theorem witness_EveryInstructionCompletes : ¬ IndexFaults (.ldaZpx 0xFE) indexFaultState ∧
    IndexFaults (.ldaZpx 0xFF) indexFaultState := by unfold IndexFaults; decide

theorem witness_CycleAccounting : ∃ u v : State, step nopState = .next (after nopState) ∧
    step (startAt 0x0200 [0x02]) = .fault (.unknownOpcode 0x02 0x0200 u) ∧
    step indexFaultState = .fault (.addressRangeViolation 0x100 v) :=
  ⟨_, _, rfl, rfl, rfl⟩

theorem witness_StepKeepsMemoryCanonical : brkState.Inv ∧ step brkState = .next (after brkState) := ⟨rfl, rfl⟩

theorem witness_StepKeepsConfiguration : step nopState = .next (after nopState) := rfl

theorem witness_OnlyListedInstructionsWriteRegisters : nopState.fetchedInstr = some .nop ∧
    step nopState = .next (after nopState) ∧ Instr.nop.mode ≠ .acc ∧
    Instr.nop.mnemonic ∉ [Mnemonic.lda, .and, .ora, .eor, .adc, .sbc, .pla, .txa, .tya] ∧
    Instr.nop.mnemonic ∉ [Mnemonic.ldx, .inx, .dex, .tax, .tsx] ∧
    Instr.nop.mnemonic ∉ [Mnemonic.ldy, .iny, .dey, .tay] ∧
    Instr.nop.mnemonic ∉ [Mnemonic.pha, .php, .pla, .plp, .jsr, .rts, .brk, .rti, .txs] :=
  ⟨by decide, rfl, by decide⟩

theorem witness_OnlyListedInstructionsWriteFlags : nopState.fetchedInstr = some .nop ∧
    step nopState = .next (after nopState) ∧
    Instr.nop.mnemonic ∉ [Mnemonic.plp, .rti, .brk, .cld, .sed, .cli, .sei, .bit, .adc, .sbc, .clv, .cmp, .cpx, .cpy, .asl,
      .lsr, .rol, .ror, .clc, .sec] ∧
    Instr.nop.mnemonic ∈ [Mnemonic.sta, .stx, .sty, .pha, .php, .jmp, .jsr, .rts, .bcc, .bcs, .beq, .bne, .bpl, .bmi, .bvc,
      .bvs, .txs, .nop] ∧
    brkState.fetchedInstr = some .brk ∧ step brkState = .next (after brkState) ∧
    Instr.brk.mnemonic ∈ [Mnemonic.clc, .sec, .cli, .sei, .cld, .sed, .clv, .brk] :=
  ⟨by decide, rfl, by decide, by decide, by decide, rfl, by decide⟩

theorem witness_OnlyListedInstructionsWriteMemory : nopState.fetchedInstr = some .nop ∧
    step nopState = .next (after nopState) ∧
    Instr.nop.mnemonic ∉ [Mnemonic.sta, .stx, .sty, .inc, .dec, .asl, .lsr, .rol, .ror, .pha, .php, .jsr, .brk] ∧
    (startAt 0x0200 [0x0A]).fetchedInstr = some .aslAcc ∧ Instr.aslAcc.mode = .acc :=
  ⟨by decide, rfl, by decide⟩

/-- The opcode of LDA # at 0xFFFF: the next instruction is at 0x0001. -/
theorem witness_OtherInstructionsAdvancePc : (startAt 0xFFFF [0xA9]).fetchedInstr = some (.ldaImm 0x00) ∧
    step (startAt 0xFFFF [0xA9]) = .next (after (startAt 0xFFFF [0xA9])) ∧
    (Instr.ldaImm 0x00).mnemonic ∉ [Mnemonic.jmp, .jsr, .rts, .rti, .brk, .bcc, .bcs, .beq, .bne, .bpl, .bmi, .bvc,
      .bvs] :=
  ⟨by decide, rfl, by decide⟩

theorem witness_StepIgnoresCyclesAndRunning : step nopState = .next (after nopState) := rfl

theorem witness_OnlyIndirectJumpReadsCompat : nopState.fetchedInstr = some .nop ∧ Instr.nop.mode ≠ .ind ∧
    step nopState = .next (after nopState) :=
  ⟨by decide, by decide, rfl⟩

theorem witness_SafeUnderFaultSameUnderWrap : brkState.cfg.zpIndexOverflow = .fault ∧
    stepsThen 2 brkState = .next (after (after brkState)) := ⟨rfl, rfl⟩

theorem witness_StoreSeenByNextFetch : selfModifyingState.Inv ∧ selfModifyingState.handlers = [] ∧
    selfModifyingState.fetchedInstr = some (.staAbs (selfModifyingState.pc + 3)) ∧ Instr.inx.length = 1 ∧
    selfModifyingState.ac = Instr.inx.opcode :=
  ⟨rfl, rfl, by decide, rfl, rfl⟩

/-- A single-step that faults, a host write, a batch of two steps with a stop request between them, a run that halts after
the host's act, one that halts at once. -/
theorem witness_SessionsStepTheCore : step nopState = .next (after nopState) ∧
    (∃ f, step (startAt 0x0200 [0xFF]) = .fault f) ∧
    (∃ t, hostMove (.writeByte 0x10 0xFF) nopState = .next t) ∧
    (∃ t, runBatch [.step, .host .stop, .step] (fun _ => []) (beginRun brkState) = .next t ∧ t.running = false ∧
      t.pc ≠ (after brkState).pc) ∧
    (∃ t, continuousRun (fun _ _ => [.step]) (fun _ _ => [.stop]) 1 brkState = some (.next t)) ∧
    (∃ t, runUntil (fun s => s.ac == 0x12) [.step, .host (.setAc 0x112), .step] nopState = some (.next t)) ∧
    runUntil (fun s => s.pc == 0x0200) [.step] nopState = some (.next nopState) :=
  ⟨rfl, ⟨_, rfl⟩, ⟨_, rfl⟩, ⟨_, rfl, rfl, by decide⟩, ⟨_, rfl⟩, ⟨_, rfl⟩, rfl⟩

/-- R225: the callback sees the state after the step, with `running` clear, and acts in it. -/
theorem test_singleStep_callback : singleStep (fun s => if s.running then [] else [.setXr s.pc.toNat]) nopState =
    .next ((after nopState).setXr 0x01) := rfl

end Sys2Proof.Machine.Slice0
end

section
/-! The proofs about the status register (spec/10_state.md). -/

namespace Sys2Proof.Machine

/-- The flags after `SetZN(v)`: N is bit 7 of `v`, Z is whether `v` is 0, each other flag is kept (R21). -/
@[simp] theorem getFlag_setZN (f : Flag) (v sr : Byte) :
    getFlag f (setZN v sr) = if f = .N then v.getLsbD 7 else if f = .Z then v == 0 else getFlag f sr := by
  rw [setZN, getFlag_putFlag, getFlag_putFlag]

/-- The zero test of a byte, on its number. -/
theorem beq_zero_eq_decide_toNat (v : Byte) : (v == 0) = decide (v.toNat = 0) := by
  rw [beq_eq_decide, decide_eq_decide, BitVec.toNat_eq]
  exact Iff.rfl

/-- Settles O1: each clause is one case of `getFlag_setZN`, with the bit tests of `v` read on its number. -/
theorem setZeroNegative : Obligations.SetZeroNegative := by
  intro v sr
  refine ⟨?_, ?_, fun f hz hn => ?_⟩
  · rw [getFlag_setZN, if_neg (by decide), if_pos rfl, beq_zero_eq_decide_toNat]
  · rw [getFlag_setZN, if_pos rfl, getLsbD_seven]
  · rw [getFlag_setZN, if_neg hn, if_neg hz]

end Sys2Proof.Machine
end

section
/-! The proofs about the logic instructions and the bit test (spec/42_logic_bit.md). -/

namespace Sys2Proof.Machine

/-- An operand that reads also resolves: both fail on the zero-page index sum only (R90, R106). -/
theorem Operand.ea_ok_of_read_ok {o : Operand} {s w : State} {v : Byte} (h : o.read s = .ok (v, w)) :
    ∃ a u, o.ea s = .ok (a, u) := by
  rcases o.ea_cases s with ⟨hsum, hfault, -⟩ | ⟨-, a, n, ha⟩
  · rcases o.read_cases s with ⟨-, -, he⟩ | ⟨hno, -⟩
    · rw [he] at h; cases h
    · exact absurd ⟨hsum, hfault⟩ hno
  · exact ⟨a, _, ha⟩

/-- An instruction that reads the byte `v` answers the state of its mnemonic's row, with `v` as the byte read and only
the free-value counter moved before. -/
theorem exec_of_readsByte {i : Instr} {s : State} {v : Byte} (h : ReadsByte i s v) :
    ∃ a u n, exec i s = .next (operandResult i.mnemonic s a u v (s.accessed n)) := by
  obtain ⟨o, w, ho, hv⟩ := h
  obtain ⟨a, u, ha⟩ := Operand.ea_ok_of_read_ok hv
  obtain ⟨n, rfl⟩ := Operand.read_ok hv
  exact ⟨a, u, n, by rw [exec_operand ho, execOperand_next _ ha hv]⟩

/-- The flags after a bit test: V and N are bits 6 and 7 of `m`, Z is whether the AND is 0, each other flag is kept
(R124). -/
@[simp] theorem getFlag_bitFlags (f : Flag) (a m sr : Byte) : getFlag f (bitFlags a m sr) =
    if f = .V then m.getLsbD 6 else if f = .N then m.getLsbD 7 else if f = .Z then a &&& m == 0 else getFlag f sr := by
  rw [bitFlags, getFlag_putFlag, getFlag_putFlag, getFlag_putFlag]

/-- A write of `SR` that keeps the flags outside `fs` changes no register and only flags of `fs`. -/
theorem State.setSr_frame {s : State} {v : Byte} {fs : List Flag} (h : ∀ f, f ∉ fs → getFlag f v = s.flag f) :
    Frame [] fs s (s.setSr v) :=
  ⟨fun r _ => by cases r <;> rfl, h, rfl, rfl, rfl, rfl⟩

/-- The status a bit test writes differs from the old one in Z, N and V only (R124). -/
theorem State.setSr_bitFlags_frame (s : State) (m : Byte) :
    Frame [] [.Z, .N, .V] s (s.setSr (bitFlags s.ac m s.sr)) := by
  refine State.setSr_frame fun f hf => ?_
  simp only [List.mem_cons, List.not_mem_nil, or_false, not_or] at hf
  obtain ⟨hz, hn, hv⟩ := hf
  rw [getFlag_bitFlags, if_neg hv, if_neg hn, if_neg hz, State.flag_eq]

/-- Settles O19: BIT leaves the state read in with `bitFlags` as its status; Z, N and V are cases of
`getFlag_bitFlags`, the rest is the frame of the reads and of the status write. -/
theorem bitTestsOperand : Obligations.BitTestsOperand := by
  intro i s m hread hbit
  obtain ⟨a, u, n, hexec⟩ := exec_of_readsByte hread
  rw [hbit] at hexec
  have hflag (f : Flag) := getFlag_bitFlags f s.ac m s.sr
  have hreads : Frame [] [.Z, .N, .V] s (s.accessed n) := (s.accessed_frame n).mono (by simp) (by simp)
  exact ⟨_, hexec, hflag .Z, hflag .N, hflag .V, rfl, hreads.trans ((s.accessed n).setSr_bitFlags_frame m),
    fun _ _ => rfl⟩

end Sys2Proof.Machine
end

section
/-! The proofs about add with carry in binary (spec/45_adc_sbc.md R150, R151, R154). -/

namespace Sys2Proof.Machine

/-- The flags after the adder's writes: C, Z, V and N are the adder's own, each other flag is kept (R150). -/
@[simp] theorem getFlag_addResult_flags (f : Flag) (r : AddResult) (sr : Byte) : getFlag f (r.flags sr) =
    if f = .C then r.c else if f = .Z then r.z else if f = .V then r.v else if f = .N then r.n else getFlag f sr := by
  rw [AddResult.flags, getFlag_putFlag, getFlag_putFlag, getFlag_putFlag, getFlag_putFlag]

/-- `AddCore` changes AC, N, V, Z and C only, whichever adder runs (R150). -/
theorem State.addCore_frame (s : State) (m : Byte) : Frame [.ac] [.N, .V, .Z, .C] s (s.addCore m) := by
  refine ⟨fun r hr => ?_, fun f hf => ?_, rfl, rfl, rfl, rfl⟩
  · cases r with
    | ac => exact absurd (List.mem_singleton_self _) hr
    | xr | yr | sp => rfl
  · simp only [List.mem_cons, List.not_mem_nil, or_false, not_or] at hf
    obtain ⟨hn, hv, hz, hc⟩ := hf
    exact (getFlag_addResult_flags f _ s.sr).trans (by rw [if_neg hc, if_neg hz, if_neg hv, if_neg hn, State.flag_eq])

/-- With D clear, `AddCore` writes what the binary adder answers (R150). -/
theorem State.addCore_of_not_decimal {s : State} (h : s.flag .D = false) (m : Byte) : s.addCore m =
    (s.setAc (binaryAdd s.ac m (carryIn s.sr)).ac).setSr ((binaryAdd s.ac m (carryIn s.sr)).flags s.sr) := by
  have hadder : Machine.addCore s.cfg.decCarry s.ac m s.sr = binaryAdd s.ac m (carryIn s.sr) :=
    if_neg (by rw [← State.flag_eq, h]; decide)
  rw [State.addCore, hadder]

theorem carryIn_le_one (sr : Byte) : carryIn sr ≤ 1 := by
  rw [carryIn]; split <;> decide

theorem binaryAdd_ac_toNat (a m : Byte) (c : Nat) :
    (binaryAdd a m c).ac.toNat = (a.toNat + m.toNat + c) % 256 :=
  BitVec.toNat_ofNat _ 8

/-- The binary adder's V: the sum of the signed operands and the carry is no signed byte (R151). The test on bits 7 says
that the operands have one sign and the sum the other, and each sign is one of the cases below. -/
theorem binaryAdd_v_eq (a m : Byte) {c : Nat} (hc : c ≤ 1) : (binaryAdd a m c).v =
    decide (a.toInt + m.toInt + c < -128 ∨ 127 < a.toInt + m.toInt + c) := by
  rw [binaryAdd, overflow_eq, decide_eq_decide, BitVec.toInt_eq_toNat_cond, BitVec.toInt_eq_toNat_cond]
  have ha := a.isLt
  have hm := m.isLt
  split <;> split <;> omega

/-- Settles O22: in every form ADC runs `AddCore` on the byte read, and with D clear that is the binary adder. Its sum,
C and V are `binaryAdd`'s, Z and N the two tests of the new AC; the rest is the frame of the reads and of `AddCore`. -/
theorem adcBinary : Obligations.AdcBinary := by
  intro i s m hread hadc hd
  obtain ⟨a, u, n, hexec⟩ := exec_of_readsByte hread
  rw [hadc] at hexec
  have hframe : Frame [.ac] [.N, .V, .Z, .C] s ((s.accessed n).addCore m) :=
    ((s.accessed_frame n).mono (by simp) (by simp)).trans ((s.accessed n).addCore_frame m)
  have hcarry : (if s.flag .C then 1 else 0 : Int) = carryIn s.sr := (Nat.cast_ite _ 1 0).symm
  have hflag (f : Flag) := getFlag_addResult_flags f (binaryAdd s.ac m (carryIn s.sr)) s.sr
  refine ⟨(s.accessed n).addCore m, hexec, ?_⟩
  rw [hcarry]
  rw [State.addCore_of_not_decimal (s := s.accessed n) hd m] at hframe ⊢
  exact ⟨binaryAdd_ac_toNat s.ac m (carryIn s.sr), hflag .C,
    (hflag .V).trans (binaryAdd_v_eq s.ac m (carryIn_le_one s.sr)),
    ⟨(hflag .Z).trans (beq_zero_eq_decide_toNat _), (hflag .N).trans (getLsbD_seven _)⟩, rfl, hframe, fun _ _ => rfl⟩

end Sys2Proof.Machine
end

section
/-! The proofs about the stack engine (spec/47_stack_transfer_flag.md R170 to R173, R192). -/

namespace Sys2Proof.Machine

/-! ### Stack cells and the bytes of a word, in the spec's arithmetic -/

theorem stackAddr_eq_ofNat (sp : Byte) : stackAddr sp = BitVec.ofNat 16 (256 + sp.toNat) := by
  rw [← stackAddr_toNat, BitVec.ofNat_toNat, BitVec.setWidth_eq]

theorem stackAddr_add_one_eq_ofNat (sp : Byte) :
    stackAddr (sp + 1) = BitVec.ofNat 16 (256 + (sp.toNat + 1) % 256) := by
  rw [stackAddr_eq_ofNat, BitVec.toNat_add]
  rfl

/-- Neighbouring stack cells differ, also where SP wraps. -/
theorem stackAddr_ne_stackAddr_sub_one (sp : Byte) : stackAddr sp ≠ stackAddr (sp - 1) := by
  rw [Ne, stackAddr_inj]
  bv_omega

theorem highByte_eq_ofNat (w : Word) : highByte w = BitVec.ofNat 8 (w.toNat / 256) := by
  rw [← highByte_toNat, BitVec.ofNat_toNat, BitVec.setWidth_eq]

theorem lowByte_eq_ofNat (w : Word) : lowByte w = BitVec.ofNat 8 (w.toNat % 256) := by
  rw [← lowByte_toNat, BitVec.ofNat_toNat, BitVec.setWidth_eq]

theorem byte_add_two (b : Byte) : b + 1 + 1 = b + 2 := BitVec.add_assoc b 1 1

theorem byte_sub_two (b : Byte) : b - 1 - 1 = b - 2 := by bv_omega

/-! ### What a push leaves -/

@[simp] theorem State.push_sp (s : State) (v : Byte) : (s.push v).sp = s.sp - 1 := by
  rw [State.push_eq, State.setSp_sp]

@[simp] theorem State.push_pc (s : State) (v : Byte) : (s.push v).pc = s.pc := by
  rw [State.push_eq, State.setSp_pc, State.busWrite_pc]

/-- A push leaves every other cell alone (R170). -/
theorem State.push_read_other (s : State) {a : Word} (v : Byte) (h : a ≠ stackAddr s.sp) :
    (s.push v).mem.read a.toNat = s.mem.read a.toNat := by
  rw [State.push_eq]
  exact State.busWrite_read_other s v h

/-- In canonical memory the cell at SP holds the pushed byte, unless the write is intercepted (R170). -/
theorem State.push_read_self {s : State} (h : s.Inv) (v : Byte) :
    (s.push v).mem.read (stackAddr s.sp).toNat = s.written 0 (stackAddr s.sp) v := by
  rw [State.push_eq]
  exact State.busWrite_read_self h (stackAddr s.sp) v

/-- A write after a push is the state's next access but one; the push does not touch another cell's old byte. -/
theorem State.written_push (s : State) {a : Word} (v x : Byte) (h : a ≠ stackAddr s.sp) :
    (s.push v).written 0 a x = s.written 1 a x := by
  have hi : (s.push v).intercepts a x = (s.accessed 1).intercepts a x := by
    rw [State.push_eq, State.intercepts_setSp, State.busWrite_eq]
    rfl
  rw [State.written, State.written, State.accessed_zero, hi, State.push_read_other s v h]

/-- A push changes nothing in the cells outside its own. -/
theorem State.push_storesOnly (s : State) (v : Byte) : StoresOnly [stackAddr s.sp] s (s.push v) :=
  fun _ ha => State.push_read_other s v (fun e => ha (List.mem_singleton.2 e))

/-- Two changes in a row store only in the cells of the first and of the second. -/
theorem StoresOnly.trans {cs ds : List Word} {s t u : State} (h : StoresOnly cs s t) (k : StoresOnly ds t u) :
    StoresOnly (cs ++ ds) s u :=
  fun a ha => (k a fun hd => ha (List.mem_append_right cs hd)).trans (h a fun hc => ha (List.mem_append_left ds hc))

/-! ### What a word push leaves: the high byte's push, then the low byte's -/

theorem State.pushWord_eq_push_push (s : State) (w : Word) :
    s.pushWord w = (s.push (highByte w)).push (lowByte w) := rfl

@[simp] theorem State.pushWord_sp (s : State) (w : Word) : (s.pushWord w).sp = s.sp - 1 - 1 := by
  rw [State.pushWord_eq_push_push, State.push_sp, State.push_sp]

@[simp] theorem State.pushWord_pc (s : State) (w : Word) : (s.pushWord w).pc = s.pc := by
  rw [State.pushWord_eq_push_push, State.push_pc, State.push_pc]

theorem State.pushWord_frame (s : State) (w : Word) : Frame [.sp] [] s (s.pushWord w) :=
  (s.push_frame (highByte w)).trans ((s.push (highByte w)).push_frame (lowByte w))

theorem State.pushWord_storesOnly (s : State) (w : Word) :
    StoresOnly [stackAddr s.sp, stackAddr (s.sp - 1)] s (s.pushWord w) := by
  rw [← State.push_sp s (highByte w)]
  exact (s.push_storesOnly (highByte w)).trans ((s.push (highByte w)).push_storesOnly (lowByte w))

/-- The high byte stands at SP: the second push goes to another cell. -/
theorem State.pushWord_read_high {s : State} (h : s.Inv) (w : Word) :
    (s.pushWord w).mem.read (stackAddr s.sp).toNat = s.written 0 (stackAddr s.sp) (highByte w) := by
  have hother : stackAddr s.sp ≠ stackAddr (s.push (highByte w)).sp := by
    rw [State.push_sp]
    exact stackAddr_ne_stackAddr_sub_one s.sp
  rw [State.pushWord_eq_push_push, State.push_read_other _ _ hother, State.push_read_self h]

/-- The low byte stands one cell below. -/
theorem State.pushWord_read_low {s : State} (h : s.Inv) (w : Word) :
    (s.pushWord w).mem.read (stackAddr (s.sp - 1)).toNat = s.written 1 (stackAddr (s.sp - 1)) (lowByte w) := by
  have hlow := State.push_read_self (State.push_inv h (highByte w)) (lowByte w)
  rw [State.push_sp] at hlow
  exact hlow.trans (State.written_push s _ _ (stackAddr_ne_stackAddr_sub_one s.sp).symm)

/-- Settles O30: both parts collect the facts about `push` and `pushWord`, with the cell and the word's bytes written as
the statement writes them. -/
theorem pushStoresBelowTop : Obligations.PushStoresBelowTop := by
  refine ⟨fun s v => ?_, fun s w => ?_⟩
  · rw [← stackAddr_eq_ofNat, ← stackAddr_toNat]
    exact ⟨s.push_storesOnly v, fun h => State.push_read_self h v, s.push_sp v, s.push_pc v, s.push_frame v⟩
  · rw [← highByte_eq_ofNat, ← lowByte_eq_ofNat, ← byte_sub_two]
    exact ⟨s.pushWord_storesOnly w, fun h => ⟨State.pushWord_read_high h w, State.pushWord_read_low h w⟩,
      s.pushWord_sp w, s.pushWord_pc w, s.pushWord_frame w⟩

/-! ### What a pop leaves -/

theorem State.setSp_frame (s : State) (v : Byte) : Frame [.sp] [] s (s.setSp v) := by
  refine ⟨fun r hr => ?_, fun _ _ => rfl, rfl, rfl, rfl, rfl⟩
  cases r with
  | sp => exact absurd (List.mem_singleton_self _) hr
  | ac | xr | yr => rfl

/-- Reads that end with a new SP change SP only. -/
theorem State.accessed_setSp_frame (s : State) (n : Nat) (v : Byte) : Frame [.sp] [] s ((s.accessed n).setSp v) :=
  ((s.accessed_frame n).mono (by simp) (by simp)).trans ((s.accessed n).setSp_frame v)

/-- Settles O31: `pop_eq` and `popWord_eq` name the bytes read and the state left, which is the old one after its reads
with a new SP. -/
theorem popReadsAboveTop : Obligations.PopReadsAboveTop := by
  refine ⟨fun s => ?_, fun s => ?_⟩
  · rw [State.pop_eq, ← stackAddr_add_one_eq_ofNat]
    exact ⟨rfl, rfl, rfl, rfl, s.accessed_setSp_frame 1 _⟩
  · rw [State.popWord_eq, byte_add_two]
    exact ⟨joinBytes_toNat _ _, rfl, rfl, rfl, s.accessed_setSp_frame 2 _⟩

/-! ### Round trips (R192) -/

/-- Which addresses are plain memory depends on the chain only. -/
theorem State.Unintercepted.of_handlers_eq {s t : State} {a : Word} (h : s.Unintercepted a)
    (ht : t.handlers = s.handlers) : t.Unintercepted a := by
  rw [State.Unintercepted, ht]
  exact h

/-- Settles O32: SP is raised back over the cells the push wrote; these are plain memory, before the push and after it,
so each pop reads the byte stored there, and the word's two bytes join to the word. -/
theorem stackRoundTrip : Obligations.StackRoundTrip := by
  refine ⟨fun s v hinv hcell => ?_, fun s w hinv hhigh hlow => ?_⟩
  · have hcell' := hcell.of_handlers_eq (s.push_frame v).handlers
    rw [State.pop_eq, State.push_sp, BitVec.sub_add_cancel]
    refine ⟨?_, rfl⟩
    rw [State.peek_unintercepted hcell', State.push_read_self hinv, State.written_unintercepted hcell]
  · have hhigh' := hhigh.of_handlers_eq (t := (s.pushWord w).accessed 1) (s.pushWord_frame w).handlers
    have hlow' := hlow.of_handlers_eq (s.pushWord_frame w).handlers
    rw [State.popWord_eq, State.pushWord_sp, BitVec.sub_add_cancel, BitVec.sub_add_cancel]
    refine ⟨?_, rfl⟩
    rw [State.peek_unintercepted hhigh', State.peek_unintercepted hlow', State.accessed_mem,
      State.pushWord_read_high hinv, State.pushWord_read_low hinv, State.written_unintercepted hhigh,
      State.written_unintercepted hlow, joinBytes_high_low]

end Sys2Proof.Machine
end

section
/-! The proofs about jumps and returns (spec/48_control_flow.md R201, R203, R205). -/

namespace Sys2Proof.Machine

/-! ### Frames of the last writes of a control transfer -/

@[simp] theorem State.setPc_reg (s : State) (w : Word) (r : Reg) : (s.setPc w).reg r = s.reg r := by
  cases r <;> rfl

/-- A write of `PC` stays within any frame: a frame leaves `PC` open. -/
theorem Frame.setPc {rs : List Reg} {fs : List Flag} {s t : State} (h : Frame rs fs s t) (w : Word) :
    Frame rs fs s (t.setPc w) :=
  ⟨fun r hr => (t.setPc_reg w r).trans (h.regs r hr), h.flags, h.cycles, h.running, h.handlers, h.cfg⟩

/-- The eight flags are all there are (R17). -/
theorem Flag.mem_all (f : Flag) : f ∈ [Flag.N, .V, .U, .B, .D, .I, .Z, .C] := by
  cases f <;> decide

/-- A write of the whole of `SR` changes no register. -/
theorem State.setSr_frame_all (s : State) (v : Byte) : Frame [] [.N, .V, .U, .B, .D, .I, .Z, .C] s (s.setSr v) :=
  State.setSr_frame fun f hf => absurd f.mem_all hf

/-! ### JMP -/

/-- JMP answers the state after resolving, with `PC` the address resolved to (R201). -/
theorem exec_jmp {i : Instr} {s u : State} {a : Word} (h : ResolvesTo i s a u) (hjmp : i.mnemonic = .jmp) :
    exec i s = .next (u.setPc a) := by
  obtain ⟨o, ho, ha⟩ := h
  rw [exec_operand ho, hjmp]
  exact addressThen_ok ha _

/-- Settles O36: JMP is `exec_jmp`, and resolving moves nothing but the free-value counter. -/
theorem jumpSetsPc : Obligations.JumpSetsPc := by
  intro i s a u hres hjmp
  have hexec := exec_jmp hres hjmp
  obtain ⟨o, -, ha⟩ := hres
  obtain ⟨n, rfl⟩ := Operand.ea_ok ha
  exact ⟨_, hexec, rfl, (s.accessed_frame n).setPc a, fun _ _ => rfl⟩

/-! ### RTS and RTI -/

theorem byte_add_three (b : Byte) : b + 1 + 1 + 1 = b + 3 := by
  rw [byte_add_two, BitVec.add_assoc]
  rfl

/-- RTS pops a word and resumes one past it (R203). -/
theorem exec_rts (s : State) : exec .rts s = .next (s.popWord.2.setPc (s.popWord.1 + 1)) :=
  exec_implied rfl s

/-- RTI is the trap return (R205, R248). -/
theorem exec_rti (s : State) : exec .rti s = .next s.returnFromTrap :=
  exec_implied rfl s

/-- Trap return changes SP and the flags only (R248). -/
theorem State.returnFromTrap_frame (s : State) :
    Frame [.sp] [.N, .V, .U, .B, .D, .I, .Z, .C] s s.returnFromTrap := by
  have hpops (v : Byte) : Frame [.sp] [.N, .V, .U, .B, .D, .I, .Z, .C] s ((s.accessed 3).setSp v) :=
    (s.accessed_setSp_frame 3 v).mono (by simp) (by simp)
  have hsr (t : State) (v : Byte) : Frame [.sp] [.N, .V, .U, .B, .D, .I, .Z, .C] t (t.setSr v) :=
    (t.setSr_frame_all v).mono (by simp) (by simp)
  rw [State.returnFromTrap_eq]
  exact ((hpops _).trans (hsr _ _)).setPc _

/-- Settles O39: RTS leaves the state after `PopWord`, of which O31 says everything, with `PC` the popped word plus 1;
RTI is the trap return, and `returnFromTrap_eq` names the three bytes it pops. -/
theorem returnsPopTheirFrame : Obligations.ReturnsPopTheirFrame := by
  refine fun s => ⟨⟨_, exec_rts s, ?_⟩, ⟨_, exec_rti s, ?_⟩⟩
  · obtain ⟨hword, hsp, -, hmem, hframe⟩ := popReadsAboveTop.2 s
    refine ⟨?_, hsp, hframe.setPc _, fun a _ => congrArg (Memory.read · a.toNat) hmem⟩
    rw [← hword]
    exact BitVec.toNat_add _ _
  · have hframe := s.returnFromTrap_frame
    rw [State.returnFromTrap_eq, byte_add_three, byte_add_two] at hframe ⊢
    exact ⟨rfl, joinBytes_toNat _ _, rfl, hframe, fun _ _ => rfl⟩

end Sys2Proof.Machine
end

section
/-! The proofs about the undefined opcode fault (spec/30_encoding.md R80, spec/60_exceptions.md R241). -/

namespace Sys2Proof.Machine

/-- The list of R80 is the bytes, in rising order, that the dispatch matrix leaves empty. -/
theorem undefinedOpcodes_eq_filter :
    undefinedOpcodes = (List.ofFn (BitVec.ofFin (w := 8))).filter fun op => (opcodeForm op).isNone := by
  decide

/-- A byte has no entry in the dispatch matrix exactly when R80 lists it. -/
theorem opcodeForm_eq_none {op : Byte} : opcodeForm op = none ↔ op ∈ undefinedOpcodes := by
  have hbyte : op ∈ List.ofFn (BitVec.ofFin (w := 8)) := List.mem_ofFn.2 ⟨op.toFin, rfl⟩
  rw [undefinedOpcodes_eq_filter, List.mem_filter, Option.isNone_iff_eq_none]
  exact (and_iff_right hbyte).symm

/-- No instruction is fetched exactly when the byte the bus answers at `PC` is one of R80's. -/
theorem fetchedInstr_eq_none_iff_mem {s : State} : s.fetchedInstr = none ↔ s.peek s.pc ∈ undefinedOpcodes :=
  fetchedInstr_eq_none.trans opcodeForm_eq_none

/-- An operand that resolves also reads: both fail on the zero-page index sum only (R90, R106). -/
theorem Operand.read_ok_of_ea_ok {o : Operand} {s u : State} {a : Word} (h : o.ea s = .ok (a, u)) :
    ∃ v w, o.read s = .ok (v, w) := by
  rcases o.read_cases s with ⟨hsum, hfault, -⟩ | ⟨-, v, n, hread⟩
  · rcases o.ea_cases s with ⟨-, -, he⟩ | ⟨hno, -⟩
    · rw [he] at h; cases h
    · exact absurd ⟨hsum, hfault⟩ hno
  · exact ⟨v, _, hread⟩

/-- The only fault an operation raises is that of the zero-page index sum, in the state it runs in (R240, R242). -/
theorem exec_fault {i : Instr} {s : State} {f : Fault} (h : exec i s = .fault f) :
    ∃ o, operandOf i = some o ∧ 0xFF < o.indexSum s ∧ s.cfg.zpIndexOverflow = .fault ∧
      f = .addressRangeViolation (o.indexSum s) s := by
  cases ho : operandOf i with
  | none => rw [exec_implied ho] at h; cases h
  | some o =>
    rw [exec_operand ho] at h
    rcases o.ea_cases s with ⟨hsum, hcfg, hea⟩ | ⟨-, a, n, hea⟩
    · rw [execOperand_error ho hea] at h
      cases h
      exact ⟨o, rfl, hsum, hcfg, rfl⟩
    · obtain ⟨v, w, hread⟩ := Operand.read_ok_of_ea_ok hea
      rw [execOperand_next _ hea hread] at h
      cases h

/-- The fetch changes no register and no flag: it moves `PC` only (R14, R220). -/
theorem State.fetched_frame (s : State) (n : Nat) : Frame [] [] s (s.fetched n) :=
  (s.accessed_frame n).setPc _

/-- What a step that ends in `UnknownOpcode` has done: it fetched an undefined byte and stopped there; an operation that
runs cannot raise that fault (R222, R241). -/
theorem step_unknownOpcode {s u : State} {op : Byte} {pc0 : Word} (h : step s = .fault (.unknownOpcode op pc0 u)) :
    s.peek s.pc ∈ undefinedOpcodes ∧ op = s.peek s.pc ∧ pc0 = s.pc ∧ u = s.fetched 1 := by
  rcases step_fault h with ⟨hnone, hf⟩ | ⟨i, -, hexec⟩
  · cases hf
    exact ⟨fetchedInstr_eq_none_iff_mem.1 hnone, rfl, rfl, rfl⟩
  · obtain ⟨o, -, -, -, hf⟩ := exec_fault hexec
    cases hf

/-- Settles O44: an undefined byte faults by `step_of_undefined`; conversely `step_unknownOpcode` names the recorded
values and the state at the fault, which is the old one after the fetch of one byte. -/
theorem undefinedOpcodeFaults : Obligations.UndefinedOpcodeFaults := by
  refine fun s => ⟨fun hop => ⟨_, step_of_undefined (fetchedInstr_eq_none_iff_mem.2 hop)⟩, fun op pc0 u h => ?_⟩
  obtain ⟨hop, rfl, rfl, rfl⟩ := step_unknownOpcode h
  exact ⟨hop, rfl, rfl, rfl, rfl, s.fetched_frame 1⟩

end Sys2Proof.Machine
end

section
/-! The proofs about the decoder and the encoder (spec/30_encoding.md R70 to R84). -/

namespace Sys2Proof

/-! ### The dispatch matrix and the opcode list -/

/-- The operand a table entry makes of the two bytes after its opcode (R71, R73). -/
def Form.args : Form → Byte → Byte → Args
  | .f1 _, _, _ => .none
  | .f2 _, b1, _ => .byte b1
  | .f3 _, b1, b2 => .word (joinBytes b2 b1)

/-- The matrix of R75 agrees with the opcode list of R74, byte by byte: what an entry makes has the byte as its opcode
and the entry's operand. -/
theorem opcode_args_of_opcodeForm {op : Byte} {f : Form} (h : opcodeForm op = some f) (b1 b2 : Byte) :
    (f.instr b1 b2).opcode = op ∧ (f.instr b1 b2).args = f.args b1 b2 := by
  obtain ⟨n, hn, rfl⟩ : ∃ n, n < 256 ∧ op = BitVec.ofNat 8 n := ⟨op.toNat, op.isLt, by simp⟩
  interval_cases n <;> cases h <;> exact ⟨rfl, rfl⟩

/-- The opcode list of R74 agrees with the matrix of R75, instruction by instruction: an opcode's entry makes its
instruction from some two bytes. -/
theorem opcodeForm_opcode (i : Instr) : ∃ f, opcodeForm i.opcode = some f ∧ ∃ b1 b2, f.instr b1 b2 = i := by
  cases hargs : i.args with
  | none => cases i <;> cases hargs <;> exact ⟨_, rfl, 0, 0, rfl⟩
  | byte b => cases i <;> cases hargs <;> (rw [Instr.opcode]; exact ⟨_, rfl, b, 0, rfl⟩)
  | word w =>
    obtain ⟨lo, hi, rfl⟩ : ∃ lo hi, joinBytes hi lo = w := ⟨_, _, Machine.joinBytes_high_low w⟩
    cases i <;> cases hargs <;> (rw [Instr.opcode]; exact ⟨_, rfl, lo, hi, rfl⟩)

/-! ### Decoding -/

/-- A table entry reads exactly the operand bytes of what it makes. -/
theorem Form.build_eq_ok_iff {f : Form} {bytes rest : List Byte} {i : Instr} : f.build bytes = .ok (i, rest) ↔
    ∃ b1 b2, i = f.instr b1 b2 ∧ bytes = (f.args b1 b2).bytes ++ rest := by
  constructor
  · intro h
    match f, bytes, h with
    | .f1 _, _, rfl => exact ⟨0, 0, rfl, rfl⟩
    | .f2 _, b :: _, rfl => exact ⟨b, 0, rfl, rfl⟩
    | .f3 _, lo :: hi :: _, rfl => exact ⟨lo, hi, rfl, by simp [Form.args, Args.bytes]⟩
  · rintro ⟨b1, b2, rfl, rfl⟩
    cases f with
    | f1 | f2 => rfl
    | f3 mk => simp [Form.args, Args.bytes, Form.build, Form.instr]

/-- What a byte string decodes to is what its first byte's entry makes. -/
theorem decode_eq_ok_iff {bytes rest : List Byte} {i : Instr} : decode bytes = .ok (i, rest) ↔
    ∃ op f bytes', bytes = op :: bytes' ∧ opcodeForm op = some f ∧ f.build bytes' = .ok (i, rest) := by
  cases bytes with
  | nil => simp [decode]
  | cons op bytes => cases hf : opcodeForm op <;> simp [decode, hf]

/-- A byte string decodes to an instruction exactly when it begins with that instruction's encoding. -/
theorem decode_eq_ok_iff_encode {bytes rest : List Byte} {i : Instr} :
    decode bytes = .ok (i, rest) ↔ bytes = encode i ++ rest := by
  rw [decode_eq_ok_iff]
  constructor
  · rintro ⟨op, f, _, rfl, hf, hbuild⟩
    obtain ⟨b1, b2, rfl, rfl⟩ := Form.build_eq_ok_iff.1 hbuild
    obtain ⟨hop, hargs⟩ := opcode_args_of_opcodeForm hf b1 b2
    rw [encode, hop, hargs, List.cons_append]
  · rintro rfl
    obtain ⟨f, hf, b1, b2, hi⟩ := opcodeForm_opcode i
    have hargs := (opcode_args_of_opcodeForm hf b1 b2).2
    rw [hi] at hargs
    exact ⟨i.opcode, f, i.args.bytes ++ rest, rfl, hf, Form.build_eq_ok_iff.2 ⟨b1, b2, hi.symm, by rw [hargs]⟩⟩

/-- Settles O8: both directions are `decode_eq_ok_iff_encode`; every instruction of the type is well formed, so the
premise is not needed. -/
theorem decodeEncodeRoundTrip : Obligations.DecodeEncodeRoundTrip :=
  ⟨fun _ _ _ => decode_eq_ok_iff_encode.2 rfl, fun _ _ _ => decode_eq_ok_iff_encode.1⟩

end Sys2Proof

namespace Sys2Proof.Machine

/-- Settles O9: each word is the encoding of its instruction and what follows it. -/
theorem sampleWordsDecode : Obligations.SampleWordsDecode := by
  refine ⟨?_, ?_, ?_, ?_, ?_, ?_, ?_, ?_, ?_, ?_⟩ <;> exact decode_eq_ok_iff_encode.2 rfl

/-! ### Undefined opcodes -/

/-- The decoder refuses a byte string by its first byte exactly when the matrix leaves that byte empty (R80). -/
theorem decode_eq_unknownOpcode_iff {op : Byte} {rest : List Byte} :
    decode (op :: rest) = .error (.unknownOpcode op) ↔ opcodeForm op = none := by
  cases hf : opcodeForm op with
  | none => simp [decode, hf]
  | some f =>
    have hbuild : f.build rest ≠ .error (.unknownOpcode op) := by
      match f, rest with
      | .f1 _, _ | .f2 _, [] | .f2 _, _ :: _ | .f3 _, [] | .f3 _, [_] | .f3 _, _ :: _ :: _ => exact nofun
    simp [decode, hf, hbuild]

/-- Settles O10: decoder and step refuse the bytes the matrix leaves empty, and these are the list of R80. -/
theorem undefinedOpcodesAreRefused : Obligations.UndefinedOpcodesAreRefused := by
  refine ⟨by decide, fun op rest => decode_eq_unknownOpcode_iff.trans opcodeForm_eq_none, fun s => ⟨?_, ?_⟩⟩
  · exact (undefinedOpcodeFaults s).1
  · rintro ⟨u, hu⟩
    exact (step_unknownOpcode hu).1

/-! ### One instruction per opcode -/

/-- One instruction for each defined opcode byte, its operand bytes 0. -/
def opcodeSamples : List Instr :=
  (List.ofFn (BitVec.ofFin (w := 8))).filterMap fun op => (opcodeForm op).map fun f => f.instr 0 0

/-- The operand bytes have no part in mnemonic, mode and cost. -/
theorem formInstr_shape {op : Byte} {f : Form} (h : opcodeForm op = some f) (b1 b2 : Byte) :
    (f.instr b1 b2).mnemonic = (f.instr 0 0).mnemonic ∧ (f.instr b1 b2).mode = (f.instr 0 0).mode ∧
      (f.instr b1 b2).baseCycles = (f.instr 0 0).baseCycles := by
  obtain ⟨n, hn, rfl⟩ : ∃ n, n < 256 ∧ op = BitVec.ofNat 8 n := ⟨op.toNat, op.isLt, by simp⟩
  interval_cases n <;> cases h <;> exact ⟨rfl, rfl, rfl⟩

/-- Every instruction has the mnemonic, mode and cost of a sample, so a claim about these is one about the samples. -/
theorem exists_opcodeSample (i : Instr) : ∃ j ∈ opcodeSamples,
    i.mnemonic = j.mnemonic ∧ i.mode = j.mode ∧ i.baseCycles = j.baseCycles := by
  obtain ⟨f, hf, b1, b2, hi⟩ := opcodeForm_opcode i
  have hshape := formInstr_shape hf b1 b2
  rw [hi] at hshape
  exact ⟨_, List.mem_filterMap.2 ⟨i.opcode, List.mem_ofFn.2 ⟨i.opcode.toFin, rfl⟩, by rw [hf]; rfl⟩, hshape⟩

/-- Settles O11: the cost table of R280, row by row, on one instruction per opcode. -/
theorem baseCyclesByClass : Obligations.BaseCyclesByClass := by
  intro i
  obtain ⟨j, hj, hmnemonic, hmode, hcost⟩ := exists_opcodeSample i
  rw [hmnemonic, hmode, hcost]
  clear hmnemonic hmode hcost
  refine ⟨?_, ?_, ?_, ?_, ?_, ?_, ?_, ?_, ?_, ?_⟩ <;> revert j <;> decide +kernel

end Sys2Proof.Machine
end

section
/-! The proofs about memory, the intercept chain and the bus (spec/20_memory.md R40 to R54). -/

namespace Sys2Proof.Machine

/-! ### Which instructions write memory, and the canonical form -/

/-- The conditional branches (R206). -/
def branchMnemonics : List Mnemonic :=
  [.bcc, .bcs, .beq, .bne, .bpl, .bmi, .bvc, .bvs]

/-- A branch leaves the state after resolving, but for `PC` (R206). -/
theorem operandResult_branch {m : Mnemonic} (h : m ∈ branchMnemonics) (s : State) (a : Word) (u : State) (v : Byte)
    (w : State) : ∃ pc, operandResult m s a u v w = u.setPc pc := by
  have row (taken : Bool) : ∃ pc, (if taken = true then u.setPc a else u) = u.setPc pc := by
    cases taken
    · exact ⟨u.pc, rfl⟩
    · exact ⟨a, rfl⟩
  cases m with
  | bcc | bcs | beq | bne | bpl | bmi | bvc | bvs => exact row _
  | _ => exact absurd h (by decide)

/-- The mnemonics whose form with an operand stores in memory. -/
def operandWriters : List Mnemonic :=
  [.sta, .stx, .sty, .inc, .dec, .asl, .lsr, .rol, .ror, .jsr]

theorem operandResult_mem {m : Mnemonic} (h : m ∉ operandWriters) (s : State) (a : Word) (v : Byte) (n k : Nat) :
    (operandResult m s a (s.accessed n) v (s.accessed k)).mem = s.mem := by
  by_cases hb : m ∈ branchMnemonics
  · obtain ⟨pc, hpc⟩ := operandResult_branch hb s a (s.accessed n) v (s.accessed k)
    rw [hpc, State.setPc_mem, State.accessed_mem]
  · cases m with
    | sta | stx | sty | inc | dec | asl | lsr | rol | ror | jsr => exact absurd (by decide) h
    | bcc | bcs | beq | bne | bpl | bmi | bvc | bvs => exact absurd (by decide) hb
    | _ => rfl

/-! The rows of `impliedResult` that use the stack, with what is read and what is left. -/

theorem impliedResult_pla (s : State) : impliedResult .pla s =
    (((s.accessed 1).setSp (s.sp + 1)).setAc (s.peek (stackAddr (s.sp + 1)))).setZN (s.peek (stackAddr (s.sp + 1))) := by
  rw [impliedResult, State.pop_eq]

theorem impliedResult_plp (s : State) : impliedResult .plp s =
    ((s.accessed 1).setSp (s.sp + 1)).setSr (s.peek (stackAddr (s.sp + 1))) := by
  rw [impliedResult, State.pop_eq]

theorem impliedResult_mem {i : Instr} (hi : operandOf i = none) (h : i.mnemonic ∉ [.pha, .php, .brk]) (s : State) :
    (impliedResult i s).mem = s.mem := by
  cases i with
  | pha | php | brk => exact absurd (by decide) h
  | pla => rw [impliedResult_pla]; rfl
  | plp => rw [impliedResult_plp]; rfl
  | rts => rw [impliedResult, State.popWord_eq]; rfl
  | rti => rw [impliedResult, State.returnFromTrap_eq]; rfl
  | inx | iny | dex | dey | aslAcc | lsrAcc | rolAcc | rorAcc | tax | tay | txa | tya | tsx | txs | clc | sec
    | cli | sei | cld | sed | clv | nop => rfl
  | _ => cases hi

theorem operandResult_inv {s : State} (h : s.Inv) (m : Mnemonic) (a : Word) (v : Byte) (n k : Nat) :
    (operandResult m s a (s.accessed n) v (s.accessed k)).Inv := by
  by_cases hm : m ∈ operandWriters
  · cases m with
    | sta | stx | sty => exact State.busWrite_inv (s := s.accessed n) h a _
    | inc | dec | asl | lsr | rol | ror => exact State.busWrite_inv (s := (s.accessed n).accessed 1) h a _
    | jsr => exact State.pushWord_inv h _
    | _ => exact absurd hm (by decide)
  · rw [State.Inv, operandResult_mem hm]
    exact h

/-- The forms without an operand that store in memory. -/
theorem implied_memory_writers : ∀ i ∈ impliedInstrs, i.mnemonic ∈ [.pha, .php, .brk] →
    i = .pha ∨ i = .php ∨ i = .brk := by
  decide

theorem impliedResult_inv {i : Instr} (hi : operandOf i = none) {s : State} (h : s.Inv) : (impliedResult i s).Inv := by
  by_cases hm : i.mnemonic ∈ [.pha, .php, .brk]
  · obtain rfl | rfl | rfl := implied_memory_writers i (implied_of_none hi) hm
    · exact State.push_inv h _
    · exact State.push_inv h _
    · rw [impliedResult, State.takeTrap_eq]
      exact State.trapped_inv h
  · rw [State.Inv, impliedResult_mem hi hm]
    exact h

/-- What an operation leaves is canonical: the rows that write memory do so by bus writes and pushes. -/
theorem exec_inv {i : Instr} {s t : State} (hs : s.Inv) (h : exec i s = .next t) : t.Inv := by
  obtain ⟨hi, rfl⟩ | ⟨o, a, n, v, k, -, -, -, rfl⟩ := exec_next h
  · exact impliedResult_inv hi hs
  · exact operandResult_inv hs i.mnemonic a v n k

/-- Settles O49: the fetch and the cycle count leave memory alone, the operation keeps the form by `exec_inv`. -/
theorem stepKeepsMemoryCanonical : Obligations.StepKeepsMemoryCanonical := by
  intro s t hs h
  obtain ⟨i, u, -, hexec, rfl⟩ := step_next h
  exact exec_inv (s := s.fetched (fetchLength i)) (t := u) hs hexec

/-- Settles O48: the reset state lists no cell. -/
theorem resetMemoryCanonical : Obligations.ResetMemoryCanonical := Memory.wf_nil

/-- Settles O50: creation copies the launch parameters; the reset state is that of the default launch. -/
theorem creationTakesLaunchValues : Obligations.CreationTakesLaunchValues :=
  ⟨fun _ => ⟨rfl, rfl, rfl, rfl, rfl, rfl, rfl, rfl, rfl, rfl, rfl⟩, Launch.default, rfl, rfl⟩

/-- The operation a step that answers a next state has run. -/
theorem step_next_of_fetched {s t : State} {i : Instr} (hf : s.fetchedInstr = some i) (h : step s = .next t) :
    ∃ u, exec i (s.fetched (fetchLength i)) = .next u ∧ t = u.addCycles i.baseCycles := by
  obtain ⟨j, u, hj, hexec, rfl⟩ := step_next h
  obtain rfl : i = j := Option.some.inj (hf.symm.trans hj)
  exact ⟨u, hexec, rfl⟩

/-- An instruction in accumulator mode has no operand. -/
theorem operandOf_of_acc {i : Instr} (h : i.mode = .acc) : operandOf i = none := by
  rw [operandOf, h]

/-- Settles O54: a form without an operand writes memory for PHA, PHP and BRK only, one with an operand for
`operandWriters` only, and no accumulator form has an operand. -/
theorem onlyListedInstructionsWriteMemory : Obligations.OnlyListedInstructionsWriteMemory := by
  intro s t i hf h hi
  obtain ⟨u, hexec, rfl⟩ := step_next_of_fetched hf h
  obtain ⟨ho, rfl⟩ | ⟨o, a, n, v, k, ho, -, -, rfl⟩ := exec_next hexec
  · refine impliedResult_mem ho (fun hm => ?_) _
    obtain rfl | rfl | rfl := implied_memory_writers i (implied_of_none ho) hm <;> exact absurd hi (by decide)
  · refine operandResult_mem (fun hm => ?_) _ a v n k
    obtain hi | hi := hi
    · refine hi ((?_ : operandWriters ⊆ _) hm)
      decide
    · rw [operandOf_of_acc hi] at ho; cases ho

/-! ### The intercept chain -/

/-- The last handler's answer wins over the rest of the chain (R50). -/
theorem chainRead_append_singleton (hs : List Handler) (h : Handler) (d : Nat) (a : Word) :
    chainRead (hs ++ [h]) d a = (h.onRead (d + hs.length) a).or (chainRead hs d a) := by
  induction hs generalizing d with
  | nil => cases hr : h.onRead d a <;> simp [chainRead, hr]
  | cons g hs ih =>
    rw [List.cons_append, chainRead, ih, chainRead, List.length_cons, Nat.add_right_comm d 1]
    cases h.onRead (d + hs.length + 1) a <;> cases chainRead hs (d + 1) a <;> rfl

/-- A write is intercepted exactly when some handler of the chain intercepts it at its own draw (R50). -/
theorem chainWrite_eq_true_iff {hs : List Handler} {d : Nat} {a : Word} {v : Byte} : chainWrite hs d a v = true ↔
    ∃ (k : Nat) (h : Handler), hs[k]? = some h ∧ h.onWrite (d + k) a v = true := by
  induction hs generalizing d with
  | nil => simp [chainWrite]
  | cons g hs ih =>
    rw [chainWrite, Bool.or_eq_true, ih]
    constructor
    · rintro (hg | ⟨k, h, hk, hw⟩)
      · exact ⟨0, g, rfl, hg⟩
      · exact ⟨k + 1, h, hk, by rwa [Nat.add_right_comm] at hw⟩
    · rintro ⟨_ | k, h, hk, hw⟩
      · cases hk; exact .inl hw
      · exact .inr ⟨k, h, hk, by rwa [Nat.add_right_comm]⟩

/-- Settles O3: the two read clauses are the cases of `chainRead_append_singleton`. -/
theorem lastDefinedAnswerWins : Obligations.LastDefinedAnswerWins := by
  refine ⟨fun _ _ => rfl, fun hs h d a v hv => ?_, fun hs h d a hn => ?_, fun hs d a v => chainWrite_eq_true_iff⟩
  · rw [chainRead_append_singleton, hv, Option.some_or]
  · rw [chainRead_append_singleton, hn, Option.none_or]

/-! ### Bus accesses -/

theorem State.busWrite_storesOnly (s : State) (a : Word) (v : Byte) : StoresOnly [a] s (s.busWrite a v) :=
  fun _ hb => State.busWrite_read_other s v fun e => hb (List.mem_singleton.2 e)

/-- Settles O4: a read is one access and `peek`, whose two cases are the chain's; a write is `busWrite_eq`. -/
theorem busReadAndWriteEffect : Obligations.BusReadAndWriteEffect := by
  refine ⟨fun s a => ⟨rfl, s.accessed_frame 1, rfl, ?_, fun v hv => ?_, fun hn => ?_⟩,
    fun s a v => ⟨s.busWrite_storesOnly a v, s.busWrite_frame a v, s.busWrite_pc a v, ?_,
      fun h => State.busWrite_read_self h a v⟩⟩
  · rw [State.busRead_snd, State.accessed_draws, Nat.one_mul]
  · rw [State.busRead_fst, State.peek, hv]
  · rw [State.busRead_fst, State.peek, hn]
  · rw [State.busWrite_draws, Nat.one_mul]

theorem State.busReadWord_eq (s : State) (a : Word) :
    s.busReadWord a = (joinBytes ((s.accessed 1).peek (a + 1)) (s.peek a), s.accessed 2) := by
  rw [← State.accessed_accessed s 1 1]
  rfl

/-- Settles O5. -/
theorem wordReadLowByteFirst : Obligations.WordReadLowByteFirst := by
  intro s a
  rw [State.busReadWord_eq]
  exact ⟨joinBytes_toNat _ _, rfl⟩

/-! ### The host's writes -/

theorem memWriteByte_of_intercepts {s : State} {a : Word} {v : Int} (h : s.intercepts a (BitVec.ofInt 8 v) = true) :
    memWriteByte a v s = .next (s.accessed 1) := if_pos h

theorem memWriteByte_of_out_of_range {s : State} {a : Word} {v : Int}
    (h : s.intercepts a (BitVec.ofInt 8 v) = false) (hv : ¬ (0 ≤ v ∧ v ≤ 255)) :
    memWriteByte a v s = .fault (.invalidWrite a v (s.accessed 1)) := by
  simp only [memWriteByte, h, if_neg hv, Bool.false_eq_true, if_false]

/-- A host write of a byte is the bus write: an intercepted one stores nothing in either (R43). -/
theorem memWriteByte_byte (a : Word) (v : Byte) (s : State) :
    memWriteByte a (v.toNat : Int) s = .next (s.busWrite a v) := by
  have hv : BitVec.ofInt 8 (v.toNat : Int) = v := by
    rw [BitVec.ofInt_natCast, BitVec.ofNat_toNat, BitVec.setWidth_eq]
  have hrange : (0 : Int) ≤ v.toNat ∧ (v.toNat : Int) ≤ 255 := by have := v.isLt; omega
  by_cases h : s.intercepts a v = true
  · rw [memWriteByte_of_intercepts (hv.symm ▸ h), State.busWrite, if_pos h]
  · simp only [memWriteByte, hv, if_neg h, if_pos hrange]

/-- Settles O6: the byte clauses are the three lemmas above, the word clauses the range check of `memWriteWord`. -/
theorem hostWriteRangeChecked : Obligations.HostWriteRangeChecked := by
  refine ⟨fun a v s => memWriteByte_of_intercepts, fun a v s h hv => ⟨_, memWriteByte_of_out_of_range h hv, rfl⟩,
    memWriteByte_byte, fun a w s hw => if_neg hw, fun a w s => ?_⟩
  have hrange : (0 : Int) ≤ w.toNat ∧ (w.toNat : Int) ≤ 65535 := by have := w.isLt; omega
  rw [memWriteWord, if_pos hrange, BitVec.ofInt_natCast, BitVec.ofNat_toNat, BitVec.setWidth_eq, State.busWriteWord,
    lowByte_eq_ofNat, highByte_eq_ofNat]

/-- Settles O7: an operation's and a step's faults are named by `exec_fault` and `step_fault`; the host's write of 256
to the reset state raises `InvalidWrite`. -/
theorem noInstructionRaisesInvalidWrite : Obligations.NoInstructionRaisesInvalidWrite := by
  have hexec (i : Instr) (s : State) (a : Word) (v : Int) (u : State) :
      exec i s ≠ .fault (.invalidWrite a v u) := fun h => by
    obtain ⟨o, -, -, -, hf⟩ := exec_fault h
    cases hf
  refine ⟨hexec, fun s a v u h => ?_, 0, 256, State.reset, _, memWriteByte_of_out_of_range rfl (by decide)⟩
  obtain ⟨-, hf⟩ | ⟨i, -, hi⟩ := step_fault h
  · cases hf
  · exact hexec i _ a v u hi

end Sys2Proof.Machine
end

section
/-! The proofs about what each instruction leaves unchanged (spec/10_state.md R12 to R18, R22, R23, R25). -/

namespace Sys2Proof.Machine

/-! ### A frame is kept by every update of what it names -/

theorem Frame.same {rs : List Reg} {fs : List Flag} (s : State) : Frame rs fs s s :=
  (Frame.refl s).mono (by simp) (by simp)

theorem Frame.accessed {rs : List Reg} {fs : List Flag} (s : State) (n : Nat) : Frame rs fs s (s.accessed n) :=
  (s.accessed_frame n).mono (by simp) (by simp)

theorem Frame.setAc {rs : List Reg} {fs : List Flag} {s t : State} (h : Frame rs fs s t) (hr : .ac ∈ rs) (v : Byte) :
    Frame rs fs s (t.setAc v) := by
  refine ⟨fun r hn => ?_, h.flags, h.cycles, h.running, h.handlers, h.cfg⟩
  cases r with
  | ac => exact absurd hr hn
  | xr | yr | sp => exact h.regs _ hn

theorem Frame.setXr {rs : List Reg} {fs : List Flag} {s t : State} (h : Frame rs fs s t) (hr : .xr ∈ rs) (v : Byte) :
    Frame rs fs s (t.setXr v) := by
  refine ⟨fun r hn => ?_, h.flags, h.cycles, h.running, h.handlers, h.cfg⟩
  cases r with
  | xr => exact absurd hr hn
  | ac | yr | sp => exact h.regs _ hn

theorem Frame.setYr {rs : List Reg} {fs : List Flag} {s t : State} (h : Frame rs fs s t) (hr : .yr ∈ rs) (v : Byte) :
    Frame rs fs s (t.setYr v) := by
  refine ⟨fun r hn => ?_, h.flags, h.cycles, h.running, h.handlers, h.cfg⟩
  cases r with
  | yr => exact absurd hr hn
  | ac | xr | sp => exact h.regs _ hn

theorem Frame.setSp {rs : List Reg} {fs : List Flag} {s t : State} (h : Frame rs fs s t) (hr : .sp ∈ rs) (v : Byte) :
    Frame rs fs s (t.setSp v) :=
  h.trans ((t.setSp_frame v).mono (by simpa using hr) (by simp))

theorem Frame.setSr {rs : List Reg} {fs : List Flag} {s t : State} (h : Frame rs fs s t) {v : Byte}
    (hv : ∀ f, f ∉ fs → getFlag f v = t.flag f) : Frame rs fs s (t.setSr v) :=
  h.trans ((State.setSr_frame hv).mono (by simp) (fun _ hf => hf))

theorem Frame.setFlag {rs : List Reg} {fs : List Flag} {s t : State} (h : Frame rs fs s t) {f : Flag} (hf : f ∈ fs)
    (b : Bool) : Frame rs fs s (t.setFlag f b) :=
  h.setSr fun g hg => (getFlag_putFlag f g b t.sr).trans (if_neg (ne_of_mem_of_not_mem hf hg).symm)

theorem Frame.setZN {rs : List Reg} {fs : List Flag} {s t : State} (h : Frame rs fs s t) (hz : .Z ∈ fs) (hn : .N ∈ fs)
    (v : Byte) : Frame rs fs s (t.setZN v) :=
  h.setSr fun g hg => by
    rw [getFlag_setZN, if_neg (ne_of_mem_of_not_mem hn hg).symm, if_neg (ne_of_mem_of_not_mem hz hg).symm, State.flag_eq]

theorem Frame.busWrite {rs : List Reg} {fs : List Flag} {s t : State} (h : Frame rs fs s t) (a : Word) (v : Byte) :
    Frame rs fs s (t.busWrite a v) :=
  h.trans ((t.busWrite_frame a v).mono (by simp) (by simp))

theorem Frame.push {rs : List Reg} {fs : List Flag} {s t : State} (h : Frame rs fs s t) (hr : .sp ∈ rs) (v : Byte) :
    Frame rs fs s (t.push v) :=
  h.trans ((t.push_frame v).mono (by simpa using hr) (by simp))

/-! ### The status bytes written by hand -/

/-- The flags after a compare: N, Z and C are the compare's own, each other flag is kept (R140). -/
@[simp] theorem getFlag_compareFlags (f : Flag) (r m sr : Byte) : getFlag f (compareFlags r m sr) =
    if f = .N then (BitVec.ofInt 8 ((r.toNat : Int) - m.toNat)).getLsbD 7
    else if f = .Z then decide ((r.toNat : Int) - m.toNat = 0)
    else if f = .C then decide (0 ≤ (r.toNat : Int) - m.toNat)
    else getFlag f sr := by
  rw [compareFlags, getFlag_putFlag, getFlag_putFlag, getFlag_putFlag]

/-- The flags after a shift: N and Z report the result, C is the bit lost, each other flag is kept (R160). -/
@[simp] theorem getFlag_shiftApply (f : Flag) (op : ShiftOp) (v sr : Byte) : getFlag f (op.apply v sr).2 =
    if f = .N then (op.apply v sr).1.getLsbD 7 else if f = .Z then (op.apply v sr).1 == 0
    else if f = .C then op.carryOut v else getFlag f sr := by
  rw [ShiftOp.apply, getFlag_setZN, getFlag_putFlag]

theorem getFlag_setZN_of_notMem {f : Flag} (h : f ∉ [Flag.Z, .N]) (v sr : Byte) :
    getFlag f (setZN v sr) = getFlag f sr := by
  simp only [List.mem_cons, List.not_mem_nil, or_false, not_or] at h
  rw [getFlag_setZN, if_neg h.2, if_neg h.1]

theorem getFlag_compareFlags_of_notMem {f : Flag} (h : f ∉ [Flag.C, .Z, .N]) (r m sr : Byte) :
    getFlag f (compareFlags r m sr) = getFlag f sr := by
  simp only [List.mem_cons, List.not_mem_nil, or_false, not_or] at h
  rw [getFlag_compareFlags, if_neg h.2.2, if_neg h.2.1, if_neg h.1]

theorem getFlag_shiftApply_of_notMem {f : Flag} (h : f ∉ [Flag.C, .Z, .N]) (op : ShiftOp) (v sr : Byte) :
    getFlag f (op.apply v sr).2 = getFlag f sr := by
  simp only [List.mem_cons, List.not_mem_nil, or_false, not_or] at h
  rw [getFlag_shiftApply, if_neg h.2.2, if_neg h.2.1, if_neg h.1]

/-- A read-modify-write changes the flags its new status byte changes, and no register (R130, R160). -/
theorem State.modified_frame {fs : List Flag} (s : State) (n : Nat) (a : Word) (r : Byte) {sr : Byte}
    (h : ∀ f, f ∉ fs → getFlag f sr = getFlag f s.sr) :
    Frame [] fs s ((((s.accessed n).accessed 1).busWrite a r).setSr sr) :=
  (((Frame.accessed s n).trans (Frame.accessed _ 1)).busWrite a r).setSr fun f hf => by
    rw [h f hf, State.flag_eq, State.busWrite_sr, State.accessed_sr, State.accessed_sr]

/-! ### What a mnemonic may write -/

/-- The flags an instruction of this mnemonic may write (R17, R22). -/
def writtenFlags : Mnemonic → List Flag
  | .lda | .ldx | .ldy | .and | .ora | .eor | .inc | .dec | .inx | .iny | .dex | .dey | .pla | .tax | .tay | .txa | .tya
    | .tsx => [.Z, .N]
  | .bit => [.Z, .N, .V]
  | .cmp | .cpx | .cpy | .asl | .lsr | .rol | .ror => [.C, .Z, .N]
  | .adc | .sbc => [.N, .V, .Z, .C]
  | .clc | .sec => [.C]
  | .cli | .sei => [.I]
  | .cld | .sed => [.D]
  | .clv => [.V]
  | .brk => [.I, .B]
  | .plp | .rti => [.N, .V, .U, .B, .D, .I, .Z, .C]
  | _ => []

/-- The registers a form with an operand may write (R12, R13). -/
def operandRegs : Mnemonic → List Reg
  | .lda | .and | .ora | .eor | .adc | .sbc => [.ac]
  | .ldx => [.xr]
  | .ldy => [.yr]
  | .jsr => [.sp]
  | _ => []

/-- The registers a form without an operand may write (R12, R13). -/
def impliedRegs : Mnemonic → List Reg
  | .txa | .tya | .asl | .lsr | .rol | .ror => [.ac]
  | .pla => [.ac, .sp]
  | .inx | .dex | .tax | .tsx => [.xr]
  | .iny | .dey | .tay => [.yr]
  | .pha | .php | .plp | .rts | .brk | .rti | .txs => [.sp]
  | _ => []

theorem operandResult_frame (m : Mnemonic) (s : State) (a : Word) (v : Byte) (n k : Nat) :
    Frame (operandRegs m) (writtenFlags m) s (operandResult m s a (s.accessed n) v (s.accessed k)) := by
  by_cases hb : m ∈ branchMnemonics
  · obtain ⟨pc, hpc⟩ := operandResult_branch hb s a (s.accessed n) v (s.accessed k)
    rw [hpc]
    exact (Frame.accessed s n).setPc pc
  · cases m with
    | lda | and | ora | eor => exact ((Frame.accessed s k).setAc (by decide) _).setZN (by decide) (by decide) _
    | ldx => exact ((Frame.accessed s k).setXr (by decide) _).setZN (by decide) (by decide) _
    | ldy => exact ((Frame.accessed s k).setYr (by decide) _).setZN (by decide) (by decide) _
    | sta | stx | sty => exact (Frame.accessed s n).busWrite a _
    | bit => exact (Frame.accessed s k).trans ((s.accessed k).setSr_bitFlags_frame v)
    | cmp | cpx | cpy =>
      exact (Frame.accessed s k).setSr fun f hf => getFlag_compareFlags_of_notMem hf _ v s.sr
    | adc | sbc => exact (Frame.accessed s k).trans ((s.accessed k).addCore_frame _)
    | inc | dec => exact s.modified_frame n a _ fun f hf => getFlag_setZN_of_notMem hf _ s.sr
    | asl | lsr | rol | ror => exact s.modified_frame n a _ fun f hf => getFlag_shiftApply_of_notMem hf _ _ s.sr
    | jmp => exact (Frame.accessed s n).setPc a
    | jsr =>
      rw [operandResult, State.busReadWord_eq]
      exact ((s.pushWord_frame _).trans (Frame.accessed _ 2)).setPc _
    | bcc | bcs | beq | bne | bpl | bmi | bvc | bvs => exact absurd (by decide) hb
    | _ => exact Frame.same s

theorem State.trapped_frame (s : State) : Frame [.sp] [.I, .B] s s.trapped :=
  (((Frame.same s).setFlag (by decide) true).setFlag (by decide) true).push (by decide) _ |>.push (by decide) _
    |>.push (by decide) _

theorem impliedResult_frame {i : Instr} (hi : operandOf i = none) (s : State) :
    Frame (impliedRegs i.mnemonic) (writtenFlags i.mnemonic) s (impliedResult i s) := by
  cases i with
  | inx | dex | tax | tsx => exact ((Frame.same s).setXr (by decide) _).setZN (by decide) (by decide) _
  | iny | dey | tay => exact ((Frame.same s).setYr (by decide) _).setZN (by decide) (by decide) _
  | txa | tya => exact ((Frame.same s).setAc (by decide) _).setZN (by decide) (by decide) _
  | aslAcc | lsrAcc | rolAcc | rorAcc =>
    exact ((Frame.same s).setAc (by decide) _).setSr fun f hf => getFlag_shiftApply_of_notMem hf _ s.ac s.sr
  | pha | php => exact s.push_frame _
  | pla =>
    rw [impliedResult_pla]
    exact (((Frame.accessed s 1).setSp (by decide) _).setAc (by decide) _).setZN (by decide) (by decide) _
  | plp =>
    rw [impliedResult_plp]
    exact ((Frame.accessed s 1).setSp (by decide) _).setSr fun f hf => absurd f.mem_all hf
  | txs => exact s.setSp_frame s.xr
  | clc | sec | cli | sei | cld | sed | clv => exact (Frame.same s).setFlag (by decide) _
  | nop => exact Frame.same s
  | rts =>
    rw [impliedResult, State.popWord_eq]
    exact (s.accessed_setSp_frame 2 _).setPc _
  | brk =>
    rw [impliedResult, State.takeTrap_eq]
    exact (s.trapped_frame.trans (Frame.accessed _ 2)).setPc _
  | rti => exact s.returnFromTrap_frame
  | _ => cases hi

/-- Which registers an instruction may write. -/
def writtenRegs (i : Instr) : List Reg :=
  if operandOf i = none then impliedRegs i.mnemonic else operandRegs i.mnemonic

/-- What an operation leaves unchanged, for every instruction. -/
theorem exec_frame {i : Instr} {s t : State} (h : exec i s = .next t) :
    Frame (writtenRegs i) (writtenFlags i.mnemonic) s t := by
  obtain ⟨hi, rfl⟩ | ⟨o, a, n, v, k, ho, -, -, rfl⟩ := exec_next h
  · rw [writtenRegs, if_pos hi]
    exact impliedResult_frame hi s
  · rw [writtenRegs, if_neg (by rw [ho]; exact nofun)]
    exact operandResult_frame i.mnemonic s a v n k

/-- What a step leaves unchanged: the fetch moves `PC`, and the cycles are charged after. -/
theorem step_keeps {s t : State} {i : Instr} (hf : s.fetchedInstr = some i) (h : step s = .next t) :
    (∀ r, r ∉ writtenRegs i → t.reg r = s.reg r) ∧ (∀ f, f ∉ writtenFlags i.mnemonic → t.flag f = s.flag f) ∧
      t.running = s.running ∧ t.handlers = s.handlers ∧ t.cfg = s.cfg := by
  obtain ⟨u, hexec, rfl⟩ := step_next_of_fetched hf h
  have hframe := exec_frame hexec
  have hfetch := s.fetched_frame (fetchLength i)
  refine ⟨fun r hr => ?_, hframe.flags, hframe.running, hframe.handlers, hframe.cfg⟩
  have hcharge : (u.addCycles i.baseCycles).reg r = u.reg r := by cases r <;> rfl
  rw [hcharge, hframe.regs r hr, hfetch.regs r (by simp)]

/-- Settles O51: the last three parts of `step_keeps`. -/
theorem stepKeepsConfiguration : Obligations.StepKeepsConfiguration := by
  intro s t h
  obtain ⟨i, _, hf, -, -⟩ := step_next h
  obtain ⟨-, -, hrunning, hhandlers, hcfg⟩ := step_keeps hf h
  exact ⟨hcfg, hhandlers, hrunning⟩

/-! ### Which instructions write a register or a flag -/

theorem mem_writtenRegs {i : Instr} {r : Reg} (h : r ∈ writtenRegs i) :
    r ∈ operandRegs i.mnemonic ∨ i ∈ impliedInstrs ∧ r ∈ impliedRegs i.mnemonic := by
  unfold writtenRegs at h
  split at h
  · exact .inr ⟨implied_of_none ‹_›, h⟩
  · exact .inl h

theorem mnemonic_of_writes_ac {i : Instr} (h : .ac ∈ writtenRegs i) :
    i.mnemonic ∈ [.lda, .and, .ora, .eor, .adc, .sbc, .pla, .txa, .tya] ∨ i.mode = .acc := by
  obtain h | ⟨hi, h⟩ := mem_writtenRegs h
  · left
    revert h
    cases i.mnemonic <;> decide
  · have himplied : ∀ j ∈ impliedInstrs, .ac ∈ impliedRegs j.mnemonic →
        j.mnemonic ∈ [.lda, .and, .ora, .eor, .adc, .sbc, .pla, .txa, .tya] ∨ j.mode = .acc := by decide
    exact himplied i hi h

theorem mnemonic_of_writes_xr {i : Instr} (h : .xr ∈ writtenRegs i) :
    i.mnemonic ∈ [.ldx, .inx, .dex, .tax, .tsx] := by
  obtain h | ⟨-, h⟩ := mem_writtenRegs h <;> revert h <;> cases i.mnemonic <;> decide

theorem mnemonic_of_writes_yr {i : Instr} (h : .yr ∈ writtenRegs i) :
    i.mnemonic ∈ [.ldy, .iny, .dey, .tay] := by
  obtain h | ⟨-, h⟩ := mem_writtenRegs h <;> revert h <;> cases i.mnemonic <;> decide

theorem mnemonic_of_writes_sp {i : Instr} (h : .sp ∈ writtenRegs i) :
    i.mnemonic ∈ [.pha, .php, .pla, .plp, .jsr, .rts, .brk, .rti, .txs] := by
  obtain h | ⟨-, h⟩ := mem_writtenRegs h <;> revert h <;> cases i.mnemonic <;> decide

/-- Settles O52: a register outside `writtenRegs` is kept, and these are the listed ones. -/
theorem onlyListedInstructionsWriteRegisters : Obligations.OnlyListedInstructionsWriteRegisters := by
  intro s t i hf h
  obtain ⟨hregs, -⟩ := step_keeps hf h
  exact ⟨fun hm hacc => hregs .ac fun hw => (mnemonic_of_writes_ac hw).elim hm hacc,
    fun hm => hregs .xr fun hw => hm (mnemonic_of_writes_xr hw),
    fun hm => hregs .yr fun hw => hm (mnemonic_of_writes_yr hw),
    fun hm => hregs .sp fun hw => hm (mnemonic_of_writes_sp hw)⟩

/-- Settles O53: a flag outside `writtenFlags` is kept; the rest compares the statement's lists with that table, mnemonic
by mnemonic. -/
theorem onlyListedInstructionsWriteFlags : Obligations.OnlyListedInstructionsWriteFlags := by
  intro s t i hf h
  obtain ⟨-, hflags, -⟩ := step_keeps hf h
  generalize i.mnemonic = m at hflags ⊢
  have hnone (hm : writtenFlags m = []) : t.sr = s.sr :=
    sr_ext fun f => hflags f (hm ▸ List.not_mem_nil)
  refine ⟨fun hm => hflags _ ?_, fun hm => hflags _ ?_, fun hm => hflags _ ?_, fun hm => hflags _ ?_,
    fun hm => hflags _ ?_, fun hm => hflags _ ?_, fun hm => ⟨hflags _ ?_, hflags _ ?_⟩, fun hm => hnone ?_⟩ <;>
    clear hflags hnone <;> revert hm <;> cases m <;> decide

/-! ### The program counter -/

/-- Only JMP, JSR and the branches among the forms with an operand write `PC` (R16). -/
theorem operandResult_pc {m : Mnemonic} (h : m ∉ [.jmp, .jsr, .bcc, .bcs, .beq, .bne, .bpl, .bmi, .bvc, .bvs])
    (s : State) (a : Word) (v : Byte) (n k : Nat) :
    (operandResult m s a (s.accessed n) v (s.accessed k)).pc = s.pc := by
  cases m with
  | jmp | jsr | bcc | bcs | beq | bne | bpl | bmi | bvc | bvs => exact absurd (by decide) h
  | sta | stx | sty | inc | dec | asl | lsr | rol | ror => exact State.busWrite_pc _ _ _
  | _ => rfl

/-- Only RTS, BRK and RTI among the forms without an operand write `PC` (R16). -/
theorem impliedResult_pc {i : Instr} (hi : operandOf i = none) (h : i.mnemonic ∉ [.rts, .brk, .rti]) (s : State) :
    (impliedResult i s).pc = s.pc := by
  cases i with
  | rts | brk | rti => exact absurd (by decide) h
  | pha | php => exact State.push_pc s _
  | pla => rw [impliedResult_pla]; rfl
  | plp => rw [impliedResult_plp]; rfl
  | inx | iny | dex | dey | aslAcc | lsrAcc | rolAcc | rorAcc | tax | tay | txa | tya | tsx | txs | clc | sec
    | cli | sei | cld | sed | clv | nop => rfl
  | _ => cases hi

/-- The mnemonics that may write `PC` beyond the fetch (R16). -/
def controlMnemonics : List Mnemonic :=
  [.jmp, .jsr, .rts, .rti, .brk, .bcc, .bcs, .beq, .bne, .bpl, .bmi, .bvc, .bvs]

/-- An operation other than a control transfer leaves `PC` where the fetch put it. -/
theorem exec_pc {i : Instr} {s t : State} (hm : i.mnemonic ∉ controlMnemonics) (h : exec i s = .next t) :
    t.pc = s.pc := by
  obtain ⟨hi, rfl⟩ | ⟨o, a, n, v, k, -, -, -, rfl⟩ := exec_next h
  · have hsub : [Mnemonic.rts, .brk, .rti] ⊆ controlMnemonics := by decide
    exact impliedResult_pc hi (fun hc => hm (hsub hc)) s
  · have hsub : [Mnemonic.jmp, .jsr, .bcc, .bcs, .beq, .bne, .bpl, .bmi, .bvc, .bvs] ⊆ controlMnemonics := by decide
    exact operandResult_pc (fun hc => hm (hsub hc)) s a v n k

/-- The fetch takes the whole of every instruction but JSR (R15, R202). -/
theorem fetchLength_eq {i : Instr} (h : i.mnemonic ≠ .jsr) : fetchLength i = i.length := by
  unfold fetchLength
  split
  · exact absurd ‹_› h
  · rfl

/-- Settles O55: the fetch moves `PC` past the instruction and the operation leaves it there. -/
theorem otherInstructionsAdvancePc : Obligations.OtherInstructionsAdvancePc := by
  intro s t i hf h hm
  obtain ⟨u, hexec, rfl⟩ := step_next_of_fetched hf h
  have hlength : i.length < 65536 := by
    rw [Instr.length]
    cases i.mode <;> decide
  have hjsr : i.mnemonic ≠ .jsr := fun e => hm (by rw [e]; decide)
  rw [State.addCycles_pc, exec_pc hm hexec, fetchLength_eq hjsr, State.fetched_eq,
    State.setPc_pc, BitVec.toNat_add, BitVec.toNat_ofNat, Nat.mod_eq_of_lt hlength]

end Sys2Proof.Machine
end

section
/-! The proofs about the addressing-mode resolver (spec/40_addressing.md). -/

namespace Sys2Proof.Machine

/-! ### Addresses as numbers -/

theorem zext_eq_ofNat (b : Byte) : zext b = BitVec.ofNat 16 b.toNat := by
  rw [zext, ← BitVec.ofNat_toNat]

theorem add_zext_eq_ofNat (w : Word) (b : Byte) : w + zext b = BitVec.ofNat 16 (w.toNat + b.toNat) := by
  rw [zext_eq_ofNat, BitVec.ofNat_add, BitVec.ofNat_toNat 16 w, BitVec.setWidth_eq]

/-! ### The direct modes -/

theorem zpIndexed_of_le {b i : Byte} (h : b.toNat + i.toNat ≤ 0xFF) (s : State) :
    zpIndexed b i s = .ok (BitVec.ofNat 16 (b.toNat + i.toNat), s) :=
  if_neg (Nat.not_lt.2 h)

theorem zpIndexed_of_fault {b i : Byte} {s : State} (h : 0xFF < b.toNat + i.toNat)
    (hcfg : s.cfg.zpIndexOverflow = .fault) :
    zpIndexed b i s = .error (.addressRangeViolation (b.toNat + i.toNat) s) := by
  simp only [zpIndexed, gt_iff_lt, if_pos h, hcfg]

theorem zpIndexed_of_wrap {b i : Byte} {s : State} (h : 0xFF < b.toNat + i.toNat)
    (hcfg : s.cfg.zpIndexOverflow = .wrap) :
    zpIndexed b i s = .ok (BitVec.ofNat 16 (b.toNat + i.toNat - 256), s) := by
  have hmod : (b.toNat + i.toNat) % 256 = b.toNat + i.toNat - 256 := by
    have := b.isLt; have := i.isLt; omega
  simp only [zpIndexed, gt_iff_lt, if_pos h, hcfg, hmod]

/-- Settles O12: the direct modes are their definitions with the address as a number, the indexed ones the three cases of
`zpIndexed`. -/
theorem resolverDirectModes : Obligations.ResolverDirectModes := by
  refine ⟨fun b w s => ⟨rfl, ?_, rfl, ?_, ?_, ?_⟩, fun b s o i ho => ?_⟩
  · rw [Operand.ea, zext_eq_ofNat]
  · rw [Operand.ea, add_zext_eq_ofNat]
  · rw [Operand.ea, add_zext_eq_ofNat]
  · rw [Operand.ea, branch_target]
  · have hea : o.ea s = zpIndexed b i s := by
      obtain ⟨rfl, rfl⟩ | ⟨rfl, rfl⟩ := ho <;> rfl
    rw [hea]
    exact ⟨fun h => zpIndexed_of_le h s, zpIndexed_of_fault, zpIndexed_of_wrap⟩

/-! ### The pointer modes -/

/-- The word a pointer read answers, by the address of its high byte (R100). -/
theorem indirectWord_fst (p : Word) (s : State) : (indirectWord p s).1 = joinBytes
    ((s.accessed 1).peek (if lowByte p = 0xFF ∧ s.cfg.compat = true then p &&& 0xFF00 else p + 1)) (s.peek p) := rfl

theorem lowByte_eq_max_iff (p : Word) : lowByte p = 0xFF ↔ p.toNat % 256 = 255 := by
  rw [← BitVec.toNat_inj, lowByte_toNat]
  rfl

/-- Masking the low byte away keeps the high byte. -/
theorem and_highMask (p : Word) : p &&& 0xFF00 = joinBytes (highByte p) 0 := by
  have h : joinBytes (highByte p) (lowByte p) &&& joinBytes 0xFF 0 = joinBytes (highByte p) 0 := by
    rw [joinBytes, joinBytes, BitVec.and_append, show (0xFF : Byte) = BitVec.allOnes 8 from rfl, BitVec.and_allOnes]
    exact congrArg (highByte p ++ ·) (BitVec.and_zero (x := lowByte p))
  rwa [joinBytes_high_low] at h

/-- The start of the page of a pointer that ends it. -/
theorem pageStart_eq_ofNat {p : Word} (h : p.toNat % 256 = 255) : p &&& 0xFF00 = BitVec.ofNat 16 (p.toNat - 255) := by
  apply BitVec.eq_of_toNat_eq
  rw [and_highMask, joinBytes_toNat, highByte_toNat, BitVec.toNat_ofNat]
  have := p.isLt
  simp
  omega

/-- Settles O13: the two clauses are the two branches of the high byte's address. -/
theorem resolverAbsoluteIndirect : Obligations.ResolverAbsoluteIndirect := by
  refine fun p s => ⟨(indirectWord p s).1, ?_, fun hcompat hp => ?_, fun hn => ?_⟩
  · rw [Operand.ea, ← indirectWord_snd]
  · rw [indirectWord_fst, if_pos ⟨(lowByte_eq_max_iff p).2 hp, hcompat⟩, pageStart_eq_ofNat hp, joinBytes_toNat]
  · rw [indirectWord_fst, if_neg (fun h => hn ⟨h.2, (lowByte_eq_max_iff p).1 h.1⟩), joinBytes_toNat]

/-- The word a zero-page pointer read answers, by the address of its high byte (R103). -/
theorem zpWord_fst (p : Byte) (s : State) : (zpWord p s).1 = joinBytes
    ((s.accessed 1).peek (if s.cfg.zpPtrWrap then zext (p + 1) else zext p + 1)) (s.peek (zext p)) := rfl

/-- Within page zero, and past its end without the wrap, the high byte is at the next address. -/
theorem zpHigh_eq_ofNat {p : Byte} {s : State} (h : p.toNat < 255 ∨ s.cfg.zpPtrWrap = false) :
    (if s.cfg.zpPtrWrap then zext (p + 1) else zext p + 1) = BitVec.ofNat 16 (p.toNat + 1) := by
  cases hw : s.cfg.zpPtrWrap with
  | false => rw [if_neg Bool.false_ne_true, zext_eq_ofNat, BitVec.ofNat_add]; rfl
  | true =>
    have hp : p.toNat < 255 := h.resolve_right (by simp [hw])
    rw [if_pos rfl, zext_eq_ofNat, BitVec.toNat_add]
    exact congrArg (BitVec.ofNat 16) (Nat.mod_eq_of_lt (by simpa using Nat.succ_lt_succ hp))

/-- Settles O14: `zpWord_fst` with the address of the high byte as a number; IZX is the pointer read at the wrapped sum,
IZY the sum of the pointer read and Y split into its bytes. -/
theorem resolverZeroPagePointers : Obligations.ResolverZeroPagePointers := by
  refine ⟨fun p s => ⟨zpWord_snd p s, fun h => ?_, fun hp hw => ?_⟩, fun b s => ?_, fun b s => ?_⟩
  · rw [zpWord_fst, zpHigh_eq_ofNat h, zext_eq_ofNat, joinBytes_toNat]
  · obtain rfl : p = 0xFF := BitVec.eq_of_toNat_eq hp
    rw [zpWord_fst, if_pos hw, joinBytes_toNat]
    rfl
  · have hsum : BitVec.ofNat 8 ((b.toNat + s.xr.toNat) % 256) = b + s.xr := by
      apply BitVec.eq_of_toNat_eq
      rw [BitVec.toNat_ofNat, BitVec.toNat_add]
      exact Nat.mod_mod _ _
    rw [Operand.ea, hsum]
  · refine ⟨(zpWord b s).1 + zext s.yr, ?_, ?_⟩
    · rw [← zpWord_snd b s]
      rfl
    · have hy := s.yr.isLt
      have hword := (zpWord b s).1.isLt
      rw [add_zext_eq_ofNat, BitVec.toNat_ofNat]
      split <;> omega

/-! ### What resolving can do -/

/-- The byte read of a form other than the immediate one: one access of the effective address (R54, R90). -/
theorem Operand.read_of_ea_ok {o : Operand} {s u : State} {a : Word} (hi : ∀ b, o ≠ .imm b) (h : o.ea s = .ok (a, u)) :
    o.read s = .ok (u.peek a, u.accessed 1) := by
  rw [Operand.read_eq, h]
  cases o with
  | imm b => exact absurd rfl (hi b)
  | _ => rfl

/-- A form with an index sum above 0xFF is one of the two zero-page indexed ones. -/
theorem Operand.zeroPageIndexed_of_indexSum {o : Operand} {s : State} (h : 0 < o.indexSum s) : ∃ b i : Byte,
    o.indexSum s = b.toNat + i.toNat ∧ ((o = .zpx b ∧ i = s.xr) ∨ (o = .zpy b ∧ i = s.yr)) := by
  cases o with
  | zpx b => exact ⟨b, s.xr, rfl, .inl ⟨rfl, rfl⟩⟩
  | zpy b => exact ⟨b, s.yr, rfl, .inr ⟨rfl, rfl⟩⟩
  | _ => exact absurd h (Nat.lt_irrefl 0)

/-- The fault of an operand that does not resolve: that of its index sum, in the state it ran in (R95, R96, R106). -/
theorem Operand.ea_error {o : Operand} {s : State} {f : Fault} (h : o.ea s = .error f) :
    0xFF < o.indexSum s ∧ s.cfg.zpIndexOverflow = .fault ∧ f = .addressRangeViolation (o.indexSum s) s := by
  obtain ⟨hsum, hcfg, he⟩ | ⟨-, a, n, he⟩ := o.ea_cases s
  · rw [he] at h; cases h; exact ⟨hsum, hcfg, rfl⟩
  · rw [he] at h; cases h

/-- An operand that does not resolve does not read either. -/
theorem Operand.read_of_ea_error {o : Operand} {s : State} {f : Fault} (h : o.ea s = .error f) : o.read s = .error f := by
  rw [Operand.read_eq, h]
  cases o with
  | imm b => cases h
  | _ => rfl

/-- An instruction's index fault is that of its operand. -/
theorem indexFaults_iff {i : Instr} {o : Operand} (ho : operandOf i = some o) {s : State} :
    IndexFaults i s ↔ 0xFF < o.indexSum s ∧ s.cfg.zpIndexOverflow = .fault := by
  rw [IndexFaults, indexSum, ho]

/-- Every operand form of an instruction reads and resolves unless its zero-page index sum faults (R90, R106). -/
theorem reads_and_resolves_of_not_indexFaults {i : Instr} {s : State} {o : Operand} (ho : operandOf i = some o)
    (hn : ¬ IndexFaults i s) : (∃ v, ReadsByte i s v) ∧ ∃ a u, ResolvesTo i s a u := by
  rw [indexFaults_iff ho] at hn
  obtain ⟨hsum, hcfg, -⟩ | ⟨-, a, n, hea⟩ := o.ea_cases s
  · exact absurd ⟨hsum, hcfg⟩ hn
  · obtain ⟨v, w, hread⟩ := Operand.read_ok_of_ea_ok hea
    exact ⟨⟨v, o, w, ho, hread⟩, a, _, o, ho, hea⟩

/-- Settles O15: the cases of `ea_cases` and `read_cases`, clause by clause. -/
theorem resolverChangesNothing : Obligations.ResolverChangesNothing := by
  refine ⟨fun o s a u h => ?_, fun o s f h => ?_, fun b s => rfl, fun o s a u => Operand.read_of_ea_ok,
    fun o s f => Operand.read_of_ea_error, fun i s o ho hn => reads_and_resolves_of_not_indexFaults ho hn⟩
  · obtain ⟨n, rfl⟩ := Operand.ea_ok h
    exact ⟨s.accessed_frame n, rfl, rfl⟩
  · obtain ⟨hsum, hcfg, rfl⟩ := Operand.ea_error h
    obtain ⟨b, i, heq, hform⟩ := Operand.zeroPageIndexed_of_indexSum (Nat.lt_trans (by decide) hsum)
    exact ⟨hcfg, b, i, heq ▸ hsum, by rw [heq], hform⟩

end Sys2Proof.Machine
end

section
/-! The proofs about loads, stores, logic, increments and compares (spec/41_load_store.md to spec/44_compare.md). -/

namespace Sys2Proof.Machine

/-! ### Instructions by the byte they read, and by the address they use -/

/-- An instruction that reads `v` leaves its row of `operandResult`, with accesses only before (R90). -/
theorem exec_of_reads {i : Instr} {s : State} {v : Byte} (h : ReadsByte i s v) : ∃ a n k,
    exec i s = .next (operandResult i.mnemonic s a (s.accessed n) v (s.accessed k)) := by
  obtain ⟨o, w, ho, hv⟩ := h
  obtain ⟨a, u, ha⟩ := Operand.ea_ok_of_read_ok hv
  obtain ⟨n, rfl⟩ := Operand.ea_ok ha
  obtain ⟨k, rfl⟩ := Operand.read_ok hv
  exact ⟨a, n, k, by rw [exec_operand ho, execOperand_next _ ha hv]⟩

/-- An instruction whose operand resolves to `a` leaves its row of `operandResult`, with accesses only before. -/
theorem exec_of_resolves {i : Instr} {s u : State} {a : Word} (h : ResolvesTo i s a u) : ∃ n v k, u = s.accessed n ∧
    exec i s = .next (operandResult i.mnemonic s a (s.accessed n) v (s.accessed k)) := by
  obtain ⟨o, ho, ha⟩ := h
  obtain ⟨v, w, hv⟩ := Operand.read_ok_of_ea_ok ha
  obtain ⟨n, rfl⟩ := Operand.ea_ok ha
  obtain ⟨k, rfl⟩ := Operand.read_ok hv
  exact ⟨n, v, k, rfl, by rw [exec_operand ho, execOperand_next _ ha hv]⟩

theorem StoresOnly.of_mem_eq {s t : State} (h : t.mem = s.mem) : StoresOnly [] s t :=
  fun a _ => congrArg (Memory.read · a.toNat) h

/-- A status byte that ends in `SetZN(v)` reports `v`. -/
theorem State.setSr_setZN_reports (s : State) (v sr : Byte) : ZNReport v (s.setSr (Machine.setZN v sr)) :=
  (s.setSr sr).setZN_reports v

/-! ### Loads and stores -/

/-- Settles O16: each load's row of `operandResult` sets its register and then Z and N. -/
theorem loadsSetRegister : Obligations.LoadsSetRegister := by
  intro i s v h
  obtain ⟨a, n, k, hexec⟩ := exec_of_reads h
  have hframe := operandResult_frame i.mnemonic s a v n k
  refine ⟨fun hm => ?_, fun hm => ?_, fun hm => ?_⟩ <;>
    (rw [hm] at hexec hframe
     exact ⟨_, hexec, rfl, State.setZN_reports _ v, rfl, hframe, fun _ _ => rfl⟩)

/-- Settles O17: the row of a store is one bus write in the state after resolving. -/
theorem storesWriteRegister : Obligations.StoresWriteRegister := by
  intro i s a u v h hv
  obtain ⟨n, x, k, rfl, hexec⟩ := exec_of_resolves h
  have hwrite : exec i s = .next ((s.accessed n).busWrite a v) := by
    obtain ⟨hm, rfl⟩ | ⟨hm, rfl⟩ | ⟨hm, rfl⟩ := hv <;> rw [hexec, hm] <;> rfl
  refine ⟨_, hwrite, (s.accessed n).busWrite_storesOnly a v, fun hs => State.busWrite_read_self (s := s.accessed n) hs a v,
    ?_, State.busWrite_pc _ _ _, (Frame.accessed s n).busWrite a v⟩
  rw [State.busWrite_draws, Nat.one_mul]

/-! ### Logic -/

/-- Settles O18: the row of a logic instruction sets AC to the combination and then Z and N. -/
theorem logicCombinesAccumulator : Obligations.LogicCombinesAccumulator := by
  intro i s m r h hr
  obtain ⟨a, n, k, hexec⟩ := exec_of_reads h
  have hcombine : exec i s = .next (((s.accessed k).setAc r).setZN r) := by
    obtain ⟨hm, rfl⟩ | ⟨hm, rfl⟩ | ⟨hm, rfl⟩ := hr <;> rw [hexec, hm] <;> rfl
  exact ⟨_, hcombine, rfl, State.setZN_reports _ r, rfl,
    ((Frame.accessed s k).setAc (by decide) r).setZN (by decide) (by decide) r, fun _ _ => rfl⟩

/-! ### Read-modify-write -/

/-- A write after `k` accesses, seen from the state before them. -/
theorem State.written_accessed (s : State) (k : Nat) (a : Word) (v : Byte) :
    (s.accessed k).written 0 a v = s.written k a v := by
  rw [State.written, State.written, State.accessed_zero]
  rfl

/-- What a read-modify-write leaves of memory, `draws` and `PC`: one cell written, by the second access (R54, R130). -/
theorem State.modified_effect (u : State) (a : Word) (r sr : Byte) :
    StoresOnly [a] u (((u.accessed 1).busWrite a r).setSr sr) ∧
    (u.Inv → (((u.accessed 1).busWrite a r).setSr sr).mem.read a.toNat = u.written 1 a r) ∧
    (((u.accessed 1).busWrite a r).setSr sr).draws = u.draws + 2 * u.handlers.length ∧
    (((u.accessed 1).busWrite a r).setSr sr).pc = u.pc := by
  refine ⟨(u.accessed 1).busWrite_storesOnly a r, fun hu => ?_, ?_, ?_⟩
  · rw [← State.written_accessed]
    exact State.busWrite_read_self (s := u.accessed 1) hu a r
  · rw [State.setSr_draws, State.busWrite_draws, State.accessed_draws, State.accessed_handlers, Nat.add_assoc, ← Nat.add_mul]
  · rw [State.setSr_pc, State.busWrite_pc, State.accessed_pc]

/-- Settles O20: the row of INC and DEC is a read-modify-write whose status byte is `SetZN` of the result. -/
theorem incDecMemory : Obligations.IncDecMemory := by
  intro i s a u r h hr
  obtain ⟨n, x, k, rfl, hexec⟩ := exec_of_resolves h
  have hmodify : exec i s = .next ((((s.accessed n).accessed 1).busWrite a r).setSr (setZN r s.sr)) := by
    obtain ⟨hm, hr⟩ | ⟨hm, hr⟩ := hr
    · obtain rfl : r = (s.accessed n).peek a + 1 := by
        apply BitVec.eq_of_toNat_eq
        rw [hr, BitVec.toNat_add]
        rfl
      rw [hexec, hm]
      rfl
    · obtain rfl : r = (s.accessed n).peek a - 1 := by
        apply BitVec.eq_of_toNat_eq
        rw [hr, BitVec.toNat_sub, Nat.add_comm]
        rfl
      rw [hexec, hm]
      rfl
  obtain ⟨hstores, hcell, hdraws, hpc⟩ := (s.accessed n).modified_effect a r (setZN r s.sr)
  exact ⟨_, hmodify, hstores, hcell, hdraws, State.setSr_setZN_reports _ r s.sr, hpc,
    s.modified_frame n a r fun f hf => getFlag_setZN_of_notMem hf r s.sr⟩

/-! ### Compares -/

/-- Bit 7 of a difference mod 256, on numbers (R140). -/
theorem getLsbD_seven_ofInt_sub (r m : Byte) : (BitVec.ofInt 8 ((r.toNat : Int) - m.toNat)).getLsbD 7 =
    decide (128 ≤ (r.toNat + 256 - m.toNat) % 256) := by
  have hr := r.isLt
  have hm := m.isLt
  rw [getLsbD_seven, BitVec.toNat_ofInt, decide_eq_decide]
  omega

/-- Settles O21: the row of a compare writes `compareFlags`, whose three flags are read on numbers. -/
theorem comparesReportDifference : Obligations.ComparesReportDifference := by
  intro i s m r h hr
  obtain ⟨a, n, k, hexec⟩ := exec_of_reads h
  have hcompare : exec i s = .next ((s.accessed k).setSr (compareFlags r m s.sr)) := by
    obtain ⟨hm, rfl⟩ | ⟨hm, rfl⟩ | ⟨hm, rfl⟩ := hr <;> rw [hexec, hm] <;> rfl
  have hflag (f : Flag) := getFlag_compareFlags f r m s.sr
  refine ⟨_, hcompare, (hflag .C).trans ?_, (hflag .Z).trans ?_, (hflag .N).trans (getLsbD_seven_ofInt_sub r m), rfl,
    (Frame.accessed s k).setSr fun f hf => getFlag_compareFlags_of_notMem hf r m s.sr, fun _ _ => rfl⟩
  · exact decide_eq_decide.2 (by omega)
  · exact decide_eq_decide.2 (by rw [← BitVec.toNat_inj]; omega)

end Sys2Proof.Machine
end

section
/-! The proofs about subtract with borrow and decimal mode (spec/45_adc_sbc.md R150 to R156). -/

namespace Sys2Proof.Machine

/-! ### The complement SBC adds (R155) -/

theorem complement_toNat (m : Byte) : (m ^^^ 0xFF).toNat = 255 - m.toNat := by
  rw [show (0xFF : Byte) = BitVec.allOnes 8 from rfl, BitVec.xor_allOnes, BitVec.toNat_not]

theorem complement_toInt (m : Byte) : (m ^^^ 0xFF).toInt = -m.toInt - 1 := by
  have := m.isLt
  rw [BitVec.toInt_eq_toNat_cond, BitVec.toInt_eq_toNat_cond, complement_toNat]
  split <;> split <;> omega

/-- The sum with the complement is the difference less the borrow, mod 256. -/
theorem binaryAdd_complement_ac (a m : Byte) (c : Nat) :
    (binaryAdd a (m ^^^ 0xFF) c).ac = BitVec.ofInt 8 ((a.toNat : Int) - m.toNat - (1 - c)) := by
  have := m.isLt
  apply BitVec.eq_of_toNat_eq
  rw [binaryAdd_ac_toNat, complement_toNat, BitVec.toNat_ofInt]
  omega

/-- The carry of the sum with the complement is the absence of a borrow. -/
theorem binaryAdd_complement_c (a m : Byte) (c : Nat) :
    (binaryAdd a (m ^^^ 0xFF) c).c = decide ((0 : Int) ≤ (a.toNat : Int) - m.toNat - (1 - c)) := by
  have := m.isLt
  rw [binaryAdd, complement_toNat, decide_eq_decide]
  omega

/-- The overflow of the sum with the complement is that of the signed difference. -/
theorem binaryAdd_complement_v (a m : Byte) {c : Nat} (hc : c ≤ 1) : (binaryAdd a (m ^^^ 0xFF) c).v =
    decide (a.toInt - m.toInt - (1 - c) < -128 ∨ 127 < a.toInt - m.toInt - (1 - c)) := by
  rw [binaryAdd_v_eq _ _ hc, complement_toInt, decide_eq_decide]
  omega

/-- Settles O23: SBC is `AddCore` on the complement, and the three lemmas above read the binary adder's answer as a
difference. -/
theorem sbcBinary : Obligations.SbcBinary := by
  intro i s m hread hsbc hd
  obtain ⟨a, n, k, hexec⟩ := exec_of_reads hread
  have hframe := operandResult_frame i.mnemonic s a m n k
  rw [hsbc] at hexec hframe
  have hborrow : (if s.flag .C then 0 else 1 : Int) = 1 - carryIn s.sr := by
    rw [carryIn, ← State.flag_eq]
    cases s.flag .C <;> rfl
  have hflag (f : Flag) := getFlag_addResult_flags f (binaryAdd s.ac (m ^^^ 0xFF) (carryIn s.sr)) s.sr
  have hadder := State.addCore_of_not_decimal (s := s.accessed k) hd (m ^^^ 0xFF)
  refine ⟨(s.accessed k).addCore (m ^^^ 0xFF), hexec, ?_⟩
  rw [hborrow, hadder]
  refine ⟨binaryAdd_complement_ac s.ac m _, (hflag .C).trans (binaryAdd_complement_c s.ac m _),
    (hflag .V).trans (binaryAdd_complement_v s.ac m (carryIn_le_one s.sr)),
    ⟨(hflag .Z).trans (beq_zero_eq_decide_toNat _), (hflag .N).trans (getLsbD_seven _)⟩, rfl, ?_, fun _ _ => rfl⟩
  rw [← hadder]
  exact hframe

/-! ### The decimal adder in the spec's arithmetic (R152, R153) -/

theorem State.addCore_of_decimal {s : State} (h : s.flag .D = true) (m : Byte) : s.addCore m =
    (s.setAc (decimalAdd s.cfg.decCarry s.ac m (carryIn s.sr)).ac).setSr
      ((decimalAdd s.cfg.decCarry s.ac m (carryIn s.sr)).flags s.sr) := by
  rw [State.addCore, Machine.addCore, ← State.flag_eq, if_pos h]

theorem decimalLow_eq (a m : Byte) (c : Nat) : decimalLow a m c =
    if 9 < a.toNat % 16 + m.toNat % 16 + c then a.toNat % 16 + m.toNat % 16 + c + 6
    else a.toNat % 16 + m.toNat % 16 + c := by
  rw [decimalLow, and_low_nibble, and_low_nibble]

theorem decimalHigh_eq (a m : Byte) (c : Nat) : decimalHigh a m c =
    16 * (a.toNat / 16 + m.toNat / 16 + if 15 < decimalLow a m c then 1 else 0) := by
  have := a.isLt
  have := m.isLt
  rw [decimalHigh, and_high_nibble, and_high_nibble]
  split <;> omega

/-- The high nibble sum after its final correction (R152). -/
def decimalHigh' (a m : Byte) (c : Nat) : Nat :=
  if 0x90 < decimalHigh a m c then decimalHigh a m c + 0x60 else decimalHigh a m c

theorem decimalAdd_ac_toNat (dc : DecCarry) (a m : Byte) (c : Nat) : (decimalAdd dc a m c).ac.toNat =
    16 * (decimalHigh' a m c / 16 % 16) + decimalLow a m c % 16 := by
  have hac : (decimalAdd dc a m c).ac =
      BitVec.ofNat 8 ((decimalHigh' a m c &&& 0xF0) ||| (decimalLow a m c &&& 0x0F)) := rfl
  rw [hac, and_high_nibble, and_low_nibble, or_nibbles (Nat.mod_lt _ (by decide)), BitVec.toNat_ofNat]
  omega

theorem decimalAdd_z (dc : DecCarry) (a m : Byte) (c : Nat) :
    (decimalAdd dc a m c).z = decide ((a.toNat + m.toNat + c) % 256 = 0) := by
  have hz : (decimalAdd dc a m c).z = (a.toNat + m.toNat + c &&& 0xFF == 0) := rfl
  rw [hz, and_byte, beq_eq_decide]

theorem decimalAdd_n (dc : DecCarry) (a m : Byte) (c : Nat) :
    (decimalAdd dc a m c).n = decide (decimalHigh a m c / 128 % 2 = 1) :=
  and_bit_seven _

theorem decimalAdd_v (dc : DecCarry) (a m : Byte) (c : Nat) : (decimalAdd dc a m c).v =
    decide (a.toNat / 128 = m.toNat / 128 ∧ a.toNat / 128 ≠ decimalHigh a m c / 128 % 2) := by
  have := a.isLt
  have := m.isLt
  have hv : (decimalAdd dc a m c).v = overflow a.toNat m.toNat (decimalHigh a m c) := rfl
  rw [hv, overflow_eq, decide_eq_decide]
  omega

theorem decimalAdd_c_decimal (a m : Byte) (c : Nat) :
    (decimalAdd .decimal a m c).c = decide (255 < decimalHigh' a m c) := rfl

theorem decimalAdd_c_binarySum (a m : Byte) (c : Nat) :
    (decimalAdd .binarySum a m c).c = decide (255 < a.toNat + m.toNat + c) := rfl

/-- In decimal mode ADC and SBC are `AddCore` on a byte: the operand, or its complement (R154, R155). -/
theorem exec_adc_sbc {i : Instr} {s : State} {m : Byte} {x : Nat} (h : ReadsByte i s m)
    (hx : (i.mnemonic = .adc ∧ x = m.toNat) ∨ (i.mnemonic = .sbc ∧ x = 255 - m.toNat)) :
    ∃ (k : Nat) (y : Byte), y.toNat = x ∧ exec i s = .next ((s.accessed k).addCore y) := by
  obtain ⟨a, n, k, hexec⟩ := exec_of_reads h
  obtain ⟨hm, rfl⟩ | ⟨hm, rfl⟩ := hx <;> rw [hm] at hexec
  · exact ⟨k, m, rfl, hexec⟩
  · exact ⟨k, m ^^^ 0xFF, complement_toNat m, hexec⟩

/-- Settles O24: with D set `AddCore` is the decimal adder, whose fields the lemmas above name. -/
theorem decimalAddAndSubtract : Obligations.DecimalAddAndSubtract := by
  intro i s m x c lo hi hi' hread hd hx hc hlo hhi hhi'
  obtain ⟨k, y, rfl, hexec⟩ := exec_adc_sbc hread hx
  obtain rfl : c = carryIn s.sr := hc
  obtain rfl : lo = decimalLow s.ac y (carryIn s.sr) := hlo.trans (decimalLow_eq _ _ _).symm
  obtain rfl : hi = decimalHigh s.ac y (carryIn s.sr) := hhi.trans (decimalHigh_eq _ _ _).symm
  obtain rfl : hi' = decimalHigh' s.ac y (carryIn s.sr) := hhi'
  have hflag (f : Flag) := getFlag_addResult_flags f (decimalAdd s.cfg.decCarry s.ac y (carryIn s.sr)) s.sr
  have hframe : Frame [.ac] [.N, .V, .Z, .C] s ((s.accessed k).addCore y) :=
    (Frame.accessed s k).trans ((s.accessed k).addCore_frame y)
  refine ⟨_, hexec, ?_⟩
  rw [State.addCore_of_decimal (s := s.accessed k) hd y] at hframe ⊢
  refine ⟨decimalAdd_ac_toNat s.cfg.decCarry _ _ _, (hflag .Z).trans (decimalAdd_z s.cfg.decCarry _ _ _),
    (hflag .N).trans (decimalAdd_n s.cfg.decCarry _ _ _), (hflag .V).trans (decimalAdd_v s.cfg.decCarry _ _ _),
    fun hdec => (hflag .C).trans ?_, fun hbin => (hflag .C).trans ?_, rfl, hframe, fun _ _ => rfl⟩
  · rw [hdec]
    exact decimalAdd_c_decimal _ _ _
  · rw [hbin]
    exact decimalAdd_c_binarySum _ _ _

/-- On decimal digits each correction turns a nibble sum above 9 into its digit and a carry (R156). -/
theorem decimal_bcd {a m : Byte} (ha : IsBcd a) (hm : IsBcd m) :
    decimalHigh' a m 0 / 16 % 16 ≤ 9 ∧ decimalLow a m 0 % 16 ≤ 9 ∧
    10 * (decimalHigh' a m 0 / 16 % 16) + decimalLow a m 0 % 16 = (bcdValue a + bcdValue m) % 100 ∧
    (255 < decimalHigh' a m 0 ↔ 100 ≤ bcdValue a + bcdValue m) := by
  obtain ⟨ha1, ha0⟩ := ha
  obtain ⟨hm1, hm0⟩ := hm
  have hlow := decimalLow_eq a m 0
  have hhigh := decimalHigh_eq a m 0
  rw [bcdValue, bcdValue]
  generalize a.toNat / 16 = a1, a.toNat % 16 = a0, m.toNat / 16 = m1, m.toNat % 16 = m0 at *
  generalize decimalLow a m 0 = low at *
  obtain ⟨carry, hcarry⟩ : ∃ carry, carry = if 15 < low then 1 else 0 := ⟨_, rfl⟩
  have hones : low % 16 + 10 * carry = a0 + m0 ∧ low % 16 ≤ 9 ∧ carry ≤ 1 := by
    split at hlow <;> split at hcarry <;> omega
  rw [← hcarry] at hhigh
  have htens : (255 < decimalHigh' a m 0 ∧ decimalHigh' a m 0 / 16 % 16 + 10 = a1 + m1 + carry) ∨
      (decimalHigh' a m 0 ≤ 255 ∧ decimalHigh' a m 0 / 16 % 16 = a1 + m1 + carry ∧ a1 + m1 + carry ≤ 9) := by
    unfold decimalHigh'
    split <;> omega
  omega

/-- Settles O25: O24 without carry-in, on decimal digits. -/
theorem decimalAdcAddsBcdNumbers : Obligations.DecimalAdcAddsBcdNumbers := by
  intro i s m hread hadc hd hc hdec ha hm
  obtain ⟨t, hexec, hac, -, -, -, hcarry, -⟩ := decimalAddAndSubtract i s m m.toNat 0 _ _ _ hread hd (.inl ⟨hadc, rfl⟩)
    (by rw [hc]; rfl) (decimalLow_eq s.ac m 0) (decimalHigh_eq s.ac m 0) rfl
  have hcarry := hcarry hdec
  obtain ⟨htens, hones, hsum, hover⟩ := decimal_bcd ha hm
  change t.ac.toNat = 16 * (decimalHigh' s.ac m 0 / 16 % 16) + decimalLow s.ac m 0 % 16 at hac
  have hdiv : t.ac.toNat / 16 = decimalHigh' s.ac m 0 / 16 % 16 := by omega
  have hmod : t.ac.toNat % 16 = decimalLow s.ac m 0 % 16 := by omega
  refine ⟨t, hexec, ⟨hdiv ▸ htens, hmod ▸ hones⟩, ?_, hcarry.trans (decide_eq_decide.2 hover)⟩
  rw [← hsum, bcdValue, hdiv, hmod]

end Sys2Proof.Machine
end

section
/-! The proofs about shifts, rotates and the instructions without an operand (spec/46_shift_rotate.md,
spec/47_stack_transfer_flag.md). -/

namespace Sys2Proof.Machine

/-! ### Shifts as arithmetic (R160) -/

theorem asl_toNat (v : Byte) (c : Bool) : (ShiftOp.asl.result v c).toNat = 2 * v.toNat % 256 := by
  rw [ShiftOp.result, BitVec.toNat_shiftLeft, Nat.shiftLeft_eq, Nat.mul_comm]

theorem lsr_toNat (v : Byte) (c : Bool) : (ShiftOp.lsr.result v c).toNat = v.toNat / 2 := by
  rw [ShiftOp.result, BitVec.toNat_ushiftRight, Nat.shiftRight_eq_div_pow]

/-- The bit ROL puts in is free: the shifted operand is even. -/
theorem rol_toNat (v : Byte) (c : Bool) : (ShiftOp.rol.result v c).toNat = (2 * v.toNat + c.toNat) % 256 := by
  have hshift : (v <<< 1).toNat = (v.toNat % 128) <<< 1 := by
    rw [BitVec.toNat_shiftLeft, Nat.shiftLeft_eq, Nat.shiftLeft_eq]
    omega
  have hbit : (if c then 0x01 else 0x00 : Byte).toNat = c.toNat := by cases c <;> rfl
  rw [ShiftOp.result, BitVec.toNat_or, hshift, hbit, ← Nat.shiftLeft_add_eq_or_of_lt (Bool.toNat_lt c), Nat.shiftLeft_eq]
  have := Bool.toNat_lt c
  omega

/-- The bit ROR puts in is free: the shifted operand is below 128. -/
theorem ror_toNat (v : Byte) (c : Bool) : (ShiftOp.ror.result v c).toNat = v.toNat / 2 + 128 * c.toNat := by
  have hshift : (v >>> 1).toNat = v.toNat / 2 := lsr_toNat v c
  have hbit : (if c then 0x80 else 0x00 : Byte).toNat = c.toNat <<< 7 := by cases c <;> rfl
  have hlt : v.toNat / 2 < 2 ^ 7 := by have := v.isLt; omega
  rw [ShiftOp.result, BitVec.toNat_or, hshift, hbit, Nat.or_comm, ← Nat.shiftLeft_add_eq_or_of_lt hlt, Nat.shiftLeft_eq]
  omega

theorem getLsbD_zero_eq_decide (v : Byte) : v.getLsbD 0 = decide (v.toNat % 2 = 1) := by
  rw [BitVec.getLsbD, Nat.testBit_zero]

/-- Settles O26: the four results by the lemmas above, the bits lost by those on bits 7 and 0. -/
theorem shiftResultsAreArithmetic : Obligations.ShiftResultsAreArithmetic := fun v c =>
  ⟨asl_toNat v c, getLsbD_seven v, rol_toNat v c, getLsbD_seven v, lsr_toNat v c, getLsbD_zero_eq_decide v,
    ror_toNat v c, getLsbD_zero_eq_decide v⟩

/-! ### Accumulator and memory forms -/

/-- What a shift leaves in the status byte (R160). -/
theorem shiftApply_reports (s : State) (op : ShiftOp) (v sr : Byte) :
    ZNReport (op.result v (getFlag .C sr)) (s.setSr (op.apply v sr).2) :=
  s.setSr_setZN_reports _ (putFlag .C (op.carryOut v) sr)

/-- The accumulator form of each shift (R92, R160). -/
theorem exec_shiftAcc {i : Instr} {op : ShiftOp}
    (h : (i, op) ∈ [(Instr.aslAcc, ShiftOp.asl), (.lsrAcc, .lsr), (.rolAcc, .rol), (.rorAcc, .ror)]) (s : State) :
    exec i s = .next ((s.setAc (op.result s.ac (s.flag .C))).setSr (op.apply s.ac s.sr).2) := by
  simp only [List.mem_cons, Prod.mk.injEq, List.not_mem_nil, or_false] at h
  obtain ⟨rfl, rfl⟩ | ⟨rfl, rfl⟩ | ⟨rfl, rfl⟩ | ⟨rfl, rfl⟩ := h <;> rfl

/-- Settles O27: `exec_shiftAcc`, with the flags of `shiftApply`. -/
theorem shiftAccumulator : Obligations.ShiftAccumulator := fun s i op h =>
  ⟨_, exec_shiftAcc h s, rfl, getFlag_shiftApply .C op s.ac s.sr, shiftApply_reports _ op s.ac s.sr, rfl,
    ((Frame.same s).setAc (by decide) _).setSr fun _ hf => getFlag_shiftApply_of_notMem hf op s.ac s.sr, fun _ _ => rfl⟩

/-- Settles O28: the row of a shift is a read-modify-write whose status byte is that of `shiftApply`. -/
theorem shiftMemory : Obligations.ShiftMemory := by
  intro i s a u op r h hop hr
  obtain ⟨n, x, k, rfl, hexec⟩ := exec_of_resolves h
  obtain rfl : r = (op.apply ((s.accessed n).peek a) s.sr).1 := hr
  have hmodify : exec i s = .next ((((s.accessed n).accessed 1).busWrite a (op.apply ((s.accessed n).peek a) s.sr).1).setSr
      (op.apply ((s.accessed n).peek a) s.sr).2) := by
    simp only [List.mem_cons, Prod.mk.injEq, List.not_mem_nil, or_false] at hop
    obtain ⟨hm, rfl⟩ | ⟨hm, rfl⟩ | ⟨hm, rfl⟩ | ⟨hm, rfl⟩ := hop <;> rw [hexec, hm] <;> rfl
  obtain ⟨hstores, hcell, hdraws, hpc⟩ := (s.accessed n).modified_effect a _ _
  exact ⟨_, hmodify, hstores, hcell, hdraws, getFlag_shiftApply .C op _ s.sr, shiftApply_reports _ op _ s.sr, hpc,
    s.modified_frame n a _ fun f hf => getFlag_shiftApply_of_notMem hf op _ s.sr⟩

/-- ROR takes back what ROL did: the carry it needs is the bit ROL lost (R165). -/
theorem ror_rol (v : Byte) (c : Bool) : ShiftOp.ror.result (ShiftOp.rol.result v c) (ShiftOp.rol.carryOut v) = v ∧
    ShiftOp.ror.carryOut (ShiftOp.rol.result v c) = c := by
  have hv := v.isLt
  have hlost : (ShiftOp.rol.carryOut v).toNat = v.toNat / 128 := by
    rw [ShiftOp.carryOut, getLsbD_seven]
    by_cases h : 128 ≤ v.toNat
    · rw [decide_eq_true h, Bool.toNat_true]; omega
    · rw [decide_eq_false h, Bool.toNat_false]; omega
  constructor
  · apply BitVec.eq_of_toNat_eq
    have := Bool.toNat_lt c
    rw [ror_toNat, rol_toNat, hlost]
    omega
  · rw [ShiftOp.carryOut, getLsbD_zero_eq_decide, rol_toNat]
    cases c
    · exact decide_eq_false (by rw [Bool.toNat_false]; omega)
    · exact decide_eq_true (by rw [Bool.toNat_true]; omega)

/-- ROL takes back what ROR did (R165). -/
theorem rol_ror (v : Byte) (c : Bool) : ShiftOp.rol.result (ShiftOp.ror.result v c) (ShiftOp.ror.carryOut v) = v ∧
    ShiftOp.rol.carryOut (ShiftOp.ror.result v c) = c := by
  have hv := v.isLt
  have hlost : (ShiftOp.ror.carryOut v).toNat = v.toNat % 2 := by
    rw [ShiftOp.carryOut, getLsbD_zero_eq_decide]
    by_cases h : v.toNat % 2 = 1
    · rw [decide_eq_true h, Bool.toNat_true, h]
    · rw [decide_eq_false h, Bool.toNat_false]; omega
  constructor
  · apply BitVec.eq_of_toNat_eq
    rw [rol_toNat, ror_toNat, hlost]
    omega
  · rw [ShiftOp.carryOut, getLsbD_seven, ror_toNat]
    cases c
    · exact decide_eq_false (by rw [Bool.toNat_false]; omega)
    · exact decide_eq_true (by rw [Bool.toNat_true]; omega)

/-- Two accumulator shifts in a row: the second works on the first's result and lost bit. -/
theorem exec_two_shiftAcc {i j : Instr} {p q : ShiftOp}
    (hi : (i, p) ∈ [(Instr.aslAcc, ShiftOp.asl), (.lsrAcc, .lsr), (.rolAcc, .rol), (.rorAcc, .ror)])
    (hj : (j, q) ∈ [(Instr.aslAcc, ShiftOp.asl), (.lsrAcc, .lsr), (.rolAcc, .rol), (.rorAcc, .ror)]) (s : State) :
    ∃ t u, exec i s = .next t ∧ exec j t = .next u ∧
      u.ac = q.result (p.result s.ac (s.flag .C)) (p.carryOut s.ac) ∧
      u.flag .C = q.carryOut (p.result s.ac (s.flag .C)) := by
  obtain ⟨t, ht, hac, hc, -⟩ := shiftAccumulator s i p hi
  obtain ⟨u, hu, hac', hc', -⟩ := shiftAccumulator t j q hj
  exact ⟨t, u, ht, hu, by rw [hac', hac, hc], by rw [hc', hac]⟩

/-- Settles O29: two shifts in a row, which cancel by `ror_rol` and `rol_ror`. -/
theorem rotateRoundTrip : Obligations.RotateRoundTrip := by
  refine fun s => ⟨?_, ?_⟩
  · obtain ⟨t, u, ht, hu, hac, hc⟩ := exec_two_shiftAcc (i := .rolAcc) (j := .rorAcc) (p := .rol) (q := .ror) (by decide)
      (by decide) s
    exact ⟨t, u, ht, hu, hac.trans (ror_rol s.ac _).1, hc.trans (ror_rol s.ac _).2⟩
  · obtain ⟨t, u, ht, hu, hac, hc⟩ := exec_two_shiftAcc (i := .rorAcc) (j := .rolAcc) (p := .ror) (q := .rol) (by decide)
      (by decide) s
    exact ⟨t, u, ht, hu, hac.trans (rol_ror s.ac _).1, hc.trans (rol_ror s.ac _).2⟩

/-! ### Stack, transfers, flags -/

/-- Settles O33: the four rows of `impliedResult`; what a push leaves is known from the stack engine. -/
theorem stackInstructions : Obligations.StackInstructions := by
  refine fun s => ⟨⟨_, exec_implied rfl s, ?_⟩, ⟨_, exec_implied rfl s, ?_⟩, ⟨_, exec_implied rfl s, ?_⟩,
    ⟨_, exec_implied rfl s, ?_⟩⟩
  · exact ⟨s.push_sp _, s.push_storesOnly _, fun h => State.push_read_self h _, s.push_pc _, s.push_frame _⟩
  · have hsr : (s.push (s.sr ||| s.cfg.phpOrMask)).sr = s.sr :=
      sr_ext fun f => (s.push_frame (s.sr ||| s.cfg.phpOrMask)).flags f List.not_mem_nil
    exact ⟨s.push_sp _, s.push_storesOnly _, fun h => State.push_read_self h _, hsr, s.push_pc _, s.push_frame _⟩
  · have hframe := impliedResult_frame (i := .pla) rfl s
    rw [impliedResult_pla] at hframe ⊢
    exact ⟨rfl, rfl, State.setZN_reports _ _, rfl, hframe, fun _ _ => rfl⟩
  · have hframe := impliedResult_frame (i := .plp) rfl s
    rw [impliedResult_plp] at hframe ⊢
    exact ⟨rfl, rfl, rfl, hframe, fun _ _ => rfl⟩

theorem putAc_effect (v : Byte) (s : State) : ∃ t, putAc v s = .next t ∧ t.ac = v ∧ ZNReport v t ∧ t.pc = s.pc ∧
    Frame [.ac] [.Z, .N] s t ∧ StoresOnly [] s t :=
  ⟨_, rfl, rfl, State.setZN_reports _ v, rfl,
    ((Frame.same s).setAc (by decide) v).setZN (by decide) (by decide) v, fun _ _ => rfl⟩

theorem putXr_effect (v : Byte) (s : State) : ∃ t, putXr v s = .next t ∧ t.xr = v ∧ ZNReport v t ∧ t.pc = s.pc ∧
    Frame [.xr] [.Z, .N] s t ∧ StoresOnly [] s t :=
  ⟨_, rfl, rfl, State.setZN_reports _ v, rfl,
    ((Frame.same s).setXr (by decide) v).setZN (by decide) (by decide) v, fun _ _ => rfl⟩

theorem putYr_effect (v : Byte) (s : State) : ∃ t, putYr v s = .next t ∧ t.yr = v ∧ ZNReport v t ∧ t.pc = s.pc ∧
    Frame [.yr] [.Z, .N] s t ∧ StoresOnly [] s t :=
  ⟨_, rfl, rfl, State.setZN_reports _ v, rfl,
    ((Frame.same s).setYr (by decide) v).setZN (by decide) (by decide) v, fun _ _ => rfl⟩

theorem byte_add_one_toNat (v : Byte) : (v + 1).toNat = (v.toNat + 1) % 256 :=
  BitVec.toNat_add v 1

theorem byte_sub_one_toNat (v : Byte) : (v - 1).toNat = (v.toNat + 255) % 256 := by
  rw [BitVec.toNat_sub, Nat.add_comm]
  rfl

/-- Settles O34: nine of these instructions put a computed value into one register, TXS and NOP do without the flags. -/
theorem registerInstructions : Obligations.RegisterInstructions := by
  intro s
  refine ⟨?_, ?_, ?_, ?_, putXr_effect s.ac s, putYr_effect s.ac s, putAc_effect s.xr s, putAc_effect s.yr s,
    putXr_effect s.sp s, ⟨_, exec_implied rfl s, rfl, rfl, s.setSp_frame s.xr, fun _ _ => rfl⟩, exec_implied rfl s⟩
  · obtain ⟨t, h, hv, hreport, hrest⟩ := putXr_effect (s.xr + 1) s
    exact ⟨t, h, hv ▸ byte_add_one_toNat s.xr, hv ▸ hreport, hrest⟩
  · obtain ⟨t, h, hv, hreport, hrest⟩ := putYr_effect (s.yr + 1) s
    exact ⟨t, h, hv ▸ byte_add_one_toNat s.yr, hv ▸ hreport, hrest⟩
  · obtain ⟨t, h, hv, hreport, hrest⟩ := putXr_effect (s.xr - 1) s
    exact ⟨t, h, hv ▸ byte_sub_one_toNat s.xr, hv ▸ hreport, hrest⟩
  · obtain ⟨t, h, hv, hreport, hrest⟩ := putYr_effect (s.yr - 1) s
    exact ⟨t, h, hv ▸ byte_sub_one_toNat s.yr, hv ▸ hreport, hrest⟩

/-- Settles O35: the rows of `impliedResult` for the flag instructions are `setFlag`. -/
theorem flagInstructionsWriteOneBit : Obligations.FlagInstructionsWriteOneBit := by
  intro s i f b h
  have hexec : exec i s = .next (s.setFlag f b) := by
    simp only [List.mem_cons, Prod.mk.injEq, List.not_mem_nil, or_false] at h
    obtain ⟨rfl, rfl, rfl⟩ | ⟨rfl, rfl, rfl⟩ | ⟨rfl, rfl, rfl⟩ | ⟨rfl, rfl, rfl⟩ | ⟨rfl, rfl, rfl⟩ | ⟨rfl, rfl, rfl⟩ |
      ⟨rfl, rfl, rfl⟩ := h <;> exact exec_implied rfl s
  exact ⟨_, hexec, (s.flag_setFlag f f b).trans (if_pos rfl), rfl,
    (Frame.same s).setFlag (List.mem_singleton_self f) b, fun _ _ => rfl⟩

end Sys2Proof.Machine
end

section
/-! The proofs about subroutines, the software interrupt and the branches (spec/48_control_flow.md, spec/60_exceptions.md
section 2). -/

namespace Sys2Proof.Machine

/-! ### What a push leaves for later accesses -/

theorem State.push_handlers (s : State) (v : Byte) : (s.push v).handlers = s.handlers :=
  (s.push_frame v).handlers

theorem State.push_draws (s : State) (v : Byte) : (s.push v).draws = s.draws + s.handlers.length := by
  rw [State.push_eq, State.setSp_draws, State.busWrite_draws, Nat.one_mul]

/-- A read after a push is one access later; the push does not touch another cell. -/
theorem State.peek_push (s : State) {a : Word} (v : Byte) (k : Nat) (h : a ≠ stackAddr s.sp) :
    ((s.push v).accessed k).peek a = (s.accessed (k + 1)).peek a := by
  refine State.peek_congr (s.push_handlers v) ?_ (State.push_read_other s v h)
  rw [State.accessed_draws, State.accessed_draws, State.push_draws, State.push_handlers, Nat.add_mul, Nat.one_mul,
    Nat.add_right_comm, Nat.add_assoc]

/-- A write after a push is one access later; the push does not touch another cell. -/
theorem State.written_push_add (s : State) {a : Word} (v x : Byte) (k : Nat) (h : a ≠ stackAddr s.sp) :
    (s.push v).written k a x = s.written (k + 1) a x := by
  have hi : ((s.push v).accessed k).intercepts a x = (s.accessed (k + 1)).intercepts a x := by
    rw [State.intercepts, State.intercepts, State.accessed_draws, State.accessed_draws, State.accessed_handlers,
      State.accessed_handlers, State.push_draws, State.push_handlers, Nat.add_mul, Nat.one_mul, Nat.add_right_comm,
      Nat.add_assoc]
  rw [State.written, State.written, hi, State.push_read_other s v h]

/-! ### JSR -/

/-- JSR pushes the address of its last byte and then reads its target (R202). -/
theorem exec_jsr (w : Word) (s : State) : exec (.jsr w) s = .next (((s.pushWord (s.pc + 1)).accessed 2).setPc
    (joinBytes (((s.pushWord (s.pc + 1)).accessed 1).peek (s.pc + 1)) ((s.pushWord (s.pc + 1)).peek s.pc))) := by
  have h : exec (.jsr w) s = .next (((s.pushWord (s.pc + 1)).busReadWord (s.pushWord (s.pc + 1)).pc).2.setPc
      ((s.pushWord (s.pc + 1)).busReadWord (s.pushWord (s.pc + 1)).pc).1) := rfl
  rw [h, State.pushWord_pc, State.busReadWord_eq]

/-- An operand byte that no push reaches and no handler answers is read as it stood before (R202). -/
theorem State.peek_pushWord_unintercepted {s : State} {a : Word} (h : s.Unintercepted a)
    (ha : a ∉ [stackAddr s.sp, stackAddr (s.sp - 1)]) (w : Word) (n : Nat) :
    ((s.pushWord w).accessed n).peek a = s.mem.read a.toNat := by
  have h' : ((s.pushWord w).accessed n).Unintercepted a := h.of_handlers_eq (s.pushWord_frame w).handlers
  rw [State.peek_unintercepted h']
  exact s.pushWord_storesOnly w a ha

/-- Settles O37: `exec_jsr`, with O30 for what the word push leaves. -/
theorem jsrPushesThenJumps : Obligations.JsrPushesThenJumps := by
  intro s w
  obtain ⟨hstores, hcells, hsp, -, hframe⟩ := pushStoresBelowTop.2 s (s.pc + 1)
  refine ⟨_, exec_jsr w s, hsp, hstores, hcells, joinBytes_toNat _ _, fun hlo hhi hlo' hhi' hw hw' => ?_,
    (hframe.trans (Frame.accessed _ 2)).setPc _⟩
  have hlow := State.peek_pushWord_unintercepted hlo hlo' (s.pc + 1) 0
  rw [State.accessed_zero] at hlow
  rw [State.setPc_pc, State.peek_pushWord_unintercepted hhi hhi', hlow, hw, hw', ← lowByte_eq_ofNat, ← highByte_eq_ofNat,
    joinBytes_high_low]

/-! ### BRK -/

/-- The status BRK pushes and leaves (R247, decision D21). -/
theorem setFlags_I_B_sr (s : State) : ((s.setFlag .I true).setFlag .B true).sr = s.sr ||| 0x14 :=
  BitVec.or_assoc s.sr 0x04 0x10

theorem State.trapped_eq (s : State) :
    s.trapped = (((s.setFlag .I true).setFlag .B true).pushWord (s.pc + 1)).push (s.sr ||| 0x14) := by
  rw [State.trapped, setFlags_I_B_sr]

theorem State.trapped_sr (s : State) : s.trapped.sr = s.sr ||| 0x14 := by
  rw [State.trapped_eq, ← setFlags_I_B_sr s]
  simp only [State.push_eq, State.pushWord_eq, State.setSp_sr, State.busWrite_sr]

theorem State.trapped_sp (s : State) : s.trapped.sp = s.sp - 3 := by
  rw [State.trapped, State.push_sp, State.pushWord_sp, State.setFlag_sp, State.setFlag_sp]
  bv_omega

/-- The third stack cell below `SP` is not one of the first two, also where `SP` wraps. -/
theorem stackAddr_sub_two_ne (sp : Byte) : stackAddr (sp - 2) ≠ stackAddr sp ∧ stackAddr (sp - 2) ≠ stackAddr (sp - 1) := by
  rw [Ne, Ne, stackAddr_inj, stackAddr_inj]
  constructor <;> bv_omega

theorem State.trapped_storesOnly (s : State) :
    StoresOnly [stackAddr s.sp, stackAddr (s.sp - 1), stackAddr (s.sp - 2)] s s.trapped := by
  have hword : StoresOnly [stackAddr s.sp, stackAddr (s.sp - 1)] s _ :=
    ((s.setFlag .I true).setFlag .B true).pushWord_storesOnly (s.pc + 1)
  have hstatus := State.push_storesOnly (((s.setFlag .I true).setFlag .B true).pushWord (s.pc + 1)) (s.sr ||| 0x14)
  rw [State.pushWord_sp, byte_sub_two] at hstatus
  rw [State.trapped_eq]
  exact hword.trans hstatus

/-- The three cells trap entry writes (R204, R247). -/
theorem State.trapped_cells {s : State} (h : s.Inv) :
    s.trapped.mem.read (stackAddr s.sp).toNat = s.written 0 (stackAddr s.sp) (highByte (s.pc + 1)) ∧
    s.trapped.mem.read (stackAddr (s.sp - 1)).toNat = s.written 1 (stackAddr (s.sp - 1)) (lowByte (s.pc + 1)) ∧
    s.trapped.mem.read (stackAddr (s.sp - 2)).toNat = s.written 2 (stackAddr (s.sp - 2)) (s.sr ||| 0x14) := by
  obtain ⟨hne, hne'⟩ := stackAddr_sub_two_ne s.sp
  have hflags : ((s.setFlag .I true).setFlag .B true).Inv := h
  have hsp : (((s.setFlag .I true).setFlag .B true).pushWord (s.pc + 1)).sp = s.sp - 2 := by
    rw [State.pushWord_sp]
    exact byte_sub_two s.sp
  rw [State.trapped_eq]
  refine ⟨?_, ?_, ?_⟩
  · rw [State.push_read_other _ _ (by rw [hsp]; exact hne.symm)]
    exact State.pushWord_read_high hflags _
  · rw [State.push_read_other _ _ (by rw [hsp]; exact hne'.symm)]
    exact State.pushWord_read_low hflags _
  · rw [← hsp, State.push_read_self (State.pushWord_inv hflags _), hsp, State.pushWord_eq_push_push,
      State.written_push_add _ _ _ _ (by rw [State.push_sp]; exact hne')]
    exact State.written_push_add ((s.setFlag .I true).setFlag .B true) _ _ 1 hne

theorem ne_stackAddr {a : Word} (h : 512 ≤ a.toNat) (p : Byte) : a ≠ stackAddr p := by
  intro e
  have hp := p.isLt
  rw [e, stackAddr_toNat] at h
  omega

/-- The vector is read after the three pushes, which do not reach it (R204). -/
theorem State.trapped_peek (s : State) {a : Word} (h : 512 ≤ a.toNat) (k : Nat) :
    (s.trapped.accessed k).peek a = (s.accessed (k + 3)).peek a := by
  rw [State.trapped_eq, State.peek_push _ _ _ (ne_stackAddr h _), State.pushWord_eq_push_push,
    State.peek_push _ _ _ (ne_stackAddr h _), State.peek_push _ _ _ (ne_stackAddr h _)]
  rfl

/-- Settles O38: BRK is trap entry, whose pushes and vector reads the lemmas above describe. -/
theorem brkTakesTrap : Obligations.BrkTakesTrap := by
  intro s
  have hvector : s.trapped.peek 0xFFFE = (s.accessed 3).peek 0xFFFE := by
    have := s.trapped_peek (a := 0xFFFE) (by decide) 0
    rwa [State.accessed_zero, Nat.zero_add] at this
  have hsr := s.trapped_sr
  have hflag (f : Flag) : s.trapped.flag f = ((s.setFlag .I true).setFlag .B true).flag f := by
    rw [State.flag_eq, State.flag_eq, hsr, setFlags_I_B_sr]
  refine ⟨_, (exec_implied rfl s).trans (congrArg _ s.takeTrap_eq), (hflag .I).trans ?_, (hflag .B).trans ?_, hsr,
    s.trapped_sp, s.trapped_storesOnly, fun h => ?_, ?_, (s.trapped_frame.trans (Frame.accessed _ 2)).setPc _⟩
  · rw [State.flag_setFlag, if_neg (by decide), State.flag_setFlag, if_pos rfl]
  · rw [State.flag_setFlag, if_pos rfl]
  · rw [← lowByte_eq_ofNat, ← highByte_eq_ofNat]
    exact State.trapped_cells h
  · rw [State.setPc_pc, joinBytes_toNat, hvector, s.trapped_peek (by decide) 1]

/-! ### Branches -/

/-- Settles O40: each branch is one test of its flag, and the target is R104's by `branch_target`. -/
theorem branchesTestOneFlag : Obligations.BranchesTestOneFlag := by
  intro s b i f x h
  have hexec : exec i s = .next (if s.flag f == x then s.setPc (s.pc + sext b) else s) := by
    simp only [List.mem_cons, Prod.mk.injEq, List.not_mem_nil, or_false] at h
    obtain ⟨rfl, rfl, rfl⟩ | ⟨rfl, rfl, rfl⟩ | ⟨rfl, rfl, rfl⟩ | ⟨rfl, rfl, rfl⟩ | ⟨rfl, rfl, rfl⟩ | ⟨rfl, rfl, rfl⟩ |
      ⟨rfl, rfl, rfl⟩ | ⟨rfl, rfl, rfl⟩ := h <;> rfl
  by_cases hx : s.flag f = x
  · rw [if_pos (beq_iff_eq.2 hx)] at hexec
    exact ⟨_, hexec, fun _ => branch_target s.pc b, fun hn => absurd hx hn, (Frame.same s).setPc _, fun _ _ => rfl⟩
  · rw [if_neg (mt beq_iff_eq.1 hx)] at hexec
    exact ⟨_, hexec, fun he => absurd he hx, fun _ => rfl, Frame.same s, fun _ _ => rfl⟩

/-! ### Calls match returns, traps match trap returns (R215) -/

/-- What a step leaves is what its operation leaves, with the cycles charged. -/
theorem step_eq_of_exec {s t : State} {i : Instr} (hf : s.fetchedInstr = some i)
    (h : exec i (s.fetched (fetchLength i)) = .next t) : step s = .next (t.addCycles i.baseCycles) := by
  rw [step_of_fetched hf, h]
  rfl

/-- After its fetch an instruction reads a cell no handler answers as it stands. -/
theorem State.peek_fetched_unintercepted {u : State} {a : Word} (h : u.Unintercepted a) (n k : Nat) :
    ((u.fetched n).accessed k).peek a = u.mem.read a.toNat :=
  State.peek_unintercepted (s := (u.fetched n).accessed k) h

/-- The two bytes of a word, put together again as a number. -/
theorem bytes_toNat (w : Word) :
    256 * (BitVec.ofNat 8 (w.toNat / 256)).toNat + (BitVec.ofNat 8 (w.toNat % 256)).toNat = w.toNat := by
  rw [← highByte_eq_ofNat, ← lowByte_eq_ofNat, highByte_toNat, lowByte_toNat, Nat.div_add_mod]

/-- Settles O41: by O37 the two cells hold the bytes of the JSR's address plus 2, and by O39 RTS resumes one past the
word in them. -/
theorem jsrThenRtsReturns : Obligations.JsrThenRtsReturns := by
  intro s t u w hs hjsr hstep hhigh hlow hhighU hlowU hrts hsp hmemHigh hmemLow
  obtain ⟨t', hexec, rfl⟩ := step_next_of_fetched hjsr hstep
  obtain ⟨t'', hcall, hspCall, -, hcells, -⟩ := jsrPushesThenJumps (s.fetched 1) w
  obtain rfl : t' = t'' := Host.Outcome.next.inj (hexec.symm.trans hcall)
  obtain ⟨hcellHigh, hcellLow⟩ := hcells hs
  obtain ⟨v, hret, hpc, hspRet, -⟩ := (returnsPopTheirFrame (u.fetched 1)).1
  have hspU : (u.fetched 1).sp = s.sp - 2 := hsp.trans hspCall
  have htop : s.sp - 2 + 2 = s.sp := BitVec.sub_add_cancel _ _
  have hnext : s.sp - 2 + 1 = s.sp - 1 := by bv_omega
  have hpopHigh := (State.peek_fetched_unintercepted hhighU 1 1).trans (hmemHigh.trans
    (hcellHigh.trans (State.written_unintercepted (s := s.fetched 1) hhigh 0 _)))
  have hpopLow := (State.peek_fetched_unintercepted hlowU 1 0).trans (hmemLow.trans
    (hcellLow.trans (State.written_unintercepted (s := s.fetched 1) hlow 1 _)))
  rw [State.accessed_zero] at hpopLow
  rw [hspU, htop, hnext, hpopHigh, hpopLow, bytes_toNat] at hpc
  refine ⟨_, step_eq_of_exec hrts hret, ?_, hspRet.trans (by rw [hspU, htop])⟩
  apply BitVec.eq_of_toNat_eq
  have hpushed : ((s.fetched 1).pc + 1).toNat = (s.pc.toNat + 2) % 65536 := by
    rw [State.fetched_eq, State.setPc_pc, BitVec.add_assoc, BitVec.toNat_add]
    rfl
  rw [State.addCycles_pc, hpc, hpushed, BitVec.toNat_add, show (3 : Word).toNat = 3 from rfl]
  omega

/-- Settles O42: by O38 the three cells hold the BRK's address plus 2 and the status with I and B set, and by O39 RTI
takes both from them. -/
theorem brkThenRtiReturns : Obligations.BrkThenRtiReturns := by
  intro s t u hs hbrk hstep hcellsU hrti hsp
  obtain ⟨t', hexec, rfl⟩ := step_next_of_fetched hbrk hstep
  obtain ⟨t'', htrap, -, -, -, hspTrap, -, hcells, -⟩ := brkTakesTrap (s.fetched 1)
  obtain rfl : t' = t'' := Host.Outcome.next.inj (hexec.symm.trans htrap)
  obtain ⟨hcellHigh, hcellLow, hcellSr⟩ := hcells hs
  obtain ⟨v, hret, hsr, hpc, hspRet, -⟩ := (returnsPopTheirFrame (u.fetched 1)).2
  have hspU : (u.fetched 1).sp = s.sp - 3 := hsp.trans hspTrap
  have htop : s.sp - 3 + 3 = s.sp := BitVec.sub_add_cancel _ _
  have hnext : s.sp - 3 + 2 = s.sp - 1 := by bv_omega
  have hnext' : s.sp - 3 + 1 = s.sp - 2 := by bv_omega
  obtain ⟨hhigh, hhighU, hmemHigh⟩ := hcellsU s.sp (by simp)
  obtain ⟨hlow, hlowU, hmemLow⟩ := hcellsU (s.sp - 1) (by simp)
  obtain ⟨hstatus, hstatusU, hmemSr⟩ := hcellsU (s.sp - 2) (by simp)
  have hpopHigh := (State.peek_fetched_unintercepted hhighU 1 2).trans (hmemHigh.trans
    (hcellHigh.trans (State.written_unintercepted (s := s.fetched 1) hhigh 0 _)))
  have hpopLow := (State.peek_fetched_unintercepted hlowU 1 1).trans (hmemLow.trans
    (hcellLow.trans (State.written_unintercepted (s := s.fetched 1) hlow 1 _)))
  have hpopSr := (State.peek_fetched_unintercepted hstatusU 1 0).trans (hmemSr.trans
    (hcellSr.trans (State.written_unintercepted (s := s.fetched 1) hstatus 2 _)))
  rw [State.accessed_zero] at hpopSr
  rw [hspU, hnext'] at hsr
  rw [hspU, htop, hnext, hpopHigh, hpopLow, bytes_toNat] at hpc
  refine ⟨_, step_eq_of_exec hrti hret, ?_, hspRet.trans (by rw [hspU, htop]), hsr.trans hpopSr⟩
  exact (BitVec.eq_of_toNat_eq hpc).trans (BitVec.add_assoc s.pc 1 1)

end Sys2Proof.Machine
end

section
/-! The proofs about the step, its faults and its cycles (spec/49_dispatch.md, spec/60_exceptions.md section 1). -/

namespace Sys2Proof.Machine

/-! ### What a step runs -/

/-- JSR reads its operand itself, every other instruction is fetched whole (R15, R202). -/
theorem fetchLength_eq_ite (i : Instr) : fetchLength i = if i.mnemonic = .jsr then 1 else i.length := by
  by_cases h : i.mnemonic = .jsr
  · rw [if_pos h, fetchLength, h]
  · rw [if_neg h, fetchLength_eq h]

/-- Settles O43: `step_of_fetched`, with the state after the fetch and the cycle count written out. -/
theorem stepRunsDecodedInstruction : Obligations.StepRunsDecodedInstruction := by
  intro s u i rest n hdecode hn hu
  rw [← fetchLength_eq_ite] at hn
  obtain rfl : u = s.fetched (fetchLength i) := by rw [hu, hn]; rfl
  rw [step_of_fetched (fetchedInstr_of_decode hdecode)]
  cases exec i (s.fetched (fetchLength i)) <;> rfl

/-! ### Completion and the index fault -/

/-- An instruction without an operand has no index sum. -/
theorem not_indexFaults_of_implied {i : Instr} (h : operandOf i = none) (s : State) : ¬ IndexFaults i s := by
  rw [IndexFaults, indexSum, h]
  exact fun hf => Nat.not_lt_zero _ hf.1

theorem exec_of_indexFaults {i : Instr} {s : State} (h : IndexFaults i s) :
    exec i s = .fault (.addressRangeViolation (indexSum i s) s) := by
  cases ho : operandOf i with
  | none => exact absurd h (not_indexFaults_of_implied ho s)
  | some o =>
    rw [indexFaults_iff ho] at h
    obtain ⟨-, -, hea⟩ | ⟨hn, -⟩ := o.ea_cases s
    · rw [exec_operand ho, execOperand_error ho hea, indexSum, ho]
    · exact absurd h hn

theorem exec_of_not_indexFaults {i : Instr} {s : State} (h : ¬ IndexFaults i s) : ∃ t, exec i s = .next t := by
  cases ho : operandOf i with
  | none => exact ⟨_, exec_implied ho s⟩
  | some o =>
    obtain ⟨-, a, u, hres⟩ := reads_and_resolves_of_not_indexFaults ho h
    obtain ⟨n, v, k, -, hexec⟩ := exec_of_resolves hres
    exact ⟨_, hexec⟩

/-- Settles O46: an instruction without an operand completes by `exec_implied`, one with an operand by what its operand
resolves to. -/
theorem everyInstructionCompletes : Obligations.EveryInstructionCompletes :=
  fun _ _ => ⟨exec_of_not_indexFaults, exec_of_indexFaults⟩

/-- The fetch moves nothing an index sum is made of. -/
theorem indexSum_fetched (i : Instr) (s : State) (n : Nat) : indexSum i (s.fetched n) = indexSum i s := by
  rw [indexSum, indexSum]
  cases operandOf i with
  | none => rfl
  | some o => cases o <;> rfl

theorem indexFaults_fetched {i : Instr} {s : State} {n : Nat} : IndexFaults i (s.fetched n) ↔ IndexFaults i s := by
  rw [IndexFaults, IndexFaults, indexSum_fetched]
  rfl

/-- A step faults with an index sum exactly when its instruction's faults, after the fetch and with nothing else done
(R242). -/
theorem step_addressRangeViolation_iff {s u : State} {i : Instr} {sum : Nat} (hf : s.fetchedInstr = some i) :
    step s = .fault (.addressRangeViolation sum u) ↔
      IndexFaults i s ∧ sum = indexSum i s ∧ u = s.fetched (fetchLength i) := by
  rw [step_of_fetched hf]
  by_cases h : IndexFaults i s
  · rw [exec_of_indexFaults (indexFaults_fetched.2 h), indexSum_fetched]
    constructor
    · intro he
      cases he
      exact ⟨h, rfl, rfl⟩
    · rintro ⟨-, rfl, rfl⟩
      rfl
  · obtain ⟨t, ht⟩ := exec_of_not_indexFaults (mt indexFaults_fetched.1 h)
    rw [ht]
    refine ⟨fun he => ?_, fun he => absurd he.1 h⟩
    cases he

theorem indexSum_le (i : Instr) (s : State) : indexSum i s ≤ 0x1FE := by
  have hx := s.xr.isLt
  have hy := s.yr.isLt
  rw [indexSum]
  cases operandOf i with
  | none => exact Nat.zero_le _
  | some o =>
    cases o with
    | zpx b | zpy b => have := b.isLt; simp only [Operand.indexSum]; omega
    | _ => exact Nat.zero_le _

/-- The instructions of modes ZPX and ZPY (R74). -/
theorem zeroPageIndexed_mnemonics (i : Instr) : i.mode = .zpx ∨ i.mode = .zpy ↔
    (i.mode = .zpx ∧ i.mnemonic ∈ [.lda, .ldy, .sta, .sty, .and, .ora, .eor, .adc, .sbc, .cmp, .inc, .dec, .asl, .lsr, .rol,
      .ror]) ∨ (i.mode = .zpy ∧ i.mnemonic ∈ [.ldx, .stx]) := by
  obtain ⟨j, hj, hmnemonic, hmode, -⟩ := exists_opcodeSample i
  rw [hmnemonic, hmode]
  clear hmnemonic hmode
  revert j
  decide +kernel

/-- The fetch of an instruction with an index sum takes two bytes. -/
theorem fetchLength_of_indexFaults {i : Instr} {s : State} (h : IndexFaults i s) : fetchLength i = 2 := by
  have hmode : i.mode = .zpx ∨ i.mode = .zpy := by
    cases ho : operandOf i with
    | none => exact absurd h (not_indexFaults_of_implied ho s)
    | some o => exact mode_of_indexSum ho (Nat.lt_trans (by decide) ((indexFaults_iff ho).1 h).1)
  have hjsr : i.mnemonic ≠ .jsr := by
    obtain ⟨-, hm⟩ | ⟨-, hm⟩ := (zeroPageIndexed_mnemonics i).1 hmode <;> exact fun e => absurd (e ▸ hm) (by decide)
  rw [fetchLength_eq hjsr, Instr.length]
  obtain hmode | hmode := hmode <;> rw [hmode] <;> rfl

/-- Settles O45: `step_addressRangeViolation_iff`, and the two bytes the fetch has taken. -/
theorem indexOverflowFaults : Obligations.IndexOverflowFaults := by
  refine ⟨fun s i hf => ⟨⟨?_, fun h => ?_⟩, fun sum u h => ?_⟩, zeroPageIndexed_mnemonics⟩
  · rintro ⟨sum, u, h⟩
    exact ((step_addressRangeViolation_iff hf).1 h).1
  · exact ⟨_, _, (step_addressRangeViolation_iff hf).2 ⟨h, rfl, rfl⟩⟩
  · obtain ⟨hfault, rfl, rfl⟩ := (step_addressRangeViolation_iff hf).1 h
    rw [fetchLength_of_indexFaults hfault]
    exact ⟨rfl, hfault.1, indexSum_le i s, rfl, rfl, s.fetched_frame 2⟩

/-! ### Cycles -/

theorem baseCycles_pos (i : Instr) : 0 < i.baseCycles := by
  obtain ⟨j, hj, -, -, hcost⟩ := exists_opcodeSample i
  rw [hcost]
  clear hcost
  revert j
  decide +kernel

/-- Settles O47: the operation leaves `cycles` alone by its frame; both faults carry the state after the fetch. -/
theorem cycleAccounting : Obligations.CycleAccounting := by
  refine fun s => ⟨fun t h => ?_, fun op pc0 u h => ?_, fun sum u h => ?_⟩
  · obtain ⟨i, u, hf, hexec, rfl⟩ := step_next h
    have hcycles : (u.addCycles i.baseCycles).cycles = s.cycles + i.baseCycles :=
      congrArg (· + i.baseCycles) (exec_frame hexec).cycles
    exact ⟨i, hf, hcycles, hcycles ▸ Nat.lt_add_of_pos_right (baseCycles_pos i)⟩
  · obtain ⟨-, -, -, rfl⟩ := step_unknownOpcode h
    rfl
  · obtain ⟨-, hf⟩ | ⟨i, hf, -⟩ := step_fault h
    · cases hf
    · obtain ⟨-, -, rfl⟩ := (step_addressRangeViolation_iff hf).1 h
      rfl

/-! ### A store is seen by the next fetch (R60) -/

/-- An instruction carries the operand bytes of its mode (R71). -/
theorem args_length (i : Instr) : i.args.length = i.mode.operandBytes := by
  cases i <;> rfl

/-- A one-byte instruction is fetched by its opcode alone. -/
theorem opcodeForm_of_length_one {i : Instr} (h : i.length = 1) : opcodeForm i.opcode = some (.f1 i) := by
  obtain ⟨f, hf, b1, b2, hi⟩ := opcodeForm_opcode i
  have hargs := (opcode_args_of_opcodeForm hf b1 b2).2
  have hnone : i.args.length = 0 := (args_length i).trans (Nat.succ.inj h)
  rw [hi] at hargs
  cases f with
  | f1 j => rw [hf, ← hi]; rfl
  | f2 mk | f3 mk => rw [hargs] at hnone; exact absurd hnone (Nat.succ_ne_zero _)

theorem fetchedInstr_of_peek {s : State} {i : Instr} (h : i.length = 1) (hop : s.peek s.pc = i.opcode) :
    s.fetchedInstr = some i := by
  rw [State.fetchedInstr, hop, opcodeForm_of_length_one h]
  rfl

/-- Settles O59: STA is one bus write in the state past its three bytes; with an empty chain it lands and the next fetch
reads it. -/
theorem storeSeenByNextFetch : Obligations.StoreSeenByNextFetch := by
  intro s i hs hempty hf hlength hac
  have hexec : exec (.staAbs (s.pc + 3)) (s.fetched 3) = .next ((s.fetched 3).busWrite (s.pc + 3) s.ac) := rfl
  have hplain : (s.fetched 3).Unintercepted (s.pc + 3) := State.unintercepted_of_empty hempty _
  refine ⟨_, step_eq_of_exec hf hexec, State.busWrite_pc _ _ _, fetchedInstr_of_peek hlength ?_⟩
  have hpc : ((s.fetched 3).busWrite (s.pc + 3) s.ac).pc = s.pc + 3 := State.busWrite_pc _ _ _
  have hplain' := hplain.of_handlers_eq (State.busWrite_handlers (s.fetched 3) (s.pc + 3) s.ac)
  rw [State.peek_addCycles, State.addCycles_pc, hpc, State.peek_unintercepted hplain',
    State.busWrite_read_self (s := s.fetched 3) hs, State.written_unintercepted hplain, hac]

end Sys2Proof.Machine
end

section
/-! The proofs about what a step does not depend on (spec/10_state.md R23 to R25, spec/92_eei_decisions.md row D1). -/

namespace Sys2Proof.Machine

/-! ### Changes of the control cells -/

/-- A change of the cells no operation but the resolver looks at: cycles added, the session flag mapped, `COMPAT` and
`ZP_INDEX_OVERFLOW` set anew. -/
structure ControlChange where
  cycles : Nat
  running : Bool → Bool
  compat : Bool → Bool
  zpIndexOverflow : ZpIndexOverflow → ZpIndexOverflow

/-- The state with the change made. -/
def ControlChange.apply (φ : ControlChange) (s : State) : State :=
  { s with
    cycles := s.cycles + φ.cycles
    running := φ.running s.running
    cfg := { s.cfg with
      compat := φ.compat s.cfg.compat
      zpIndexOverflow := φ.zpIndexOverflow s.cfg.zpIndexOverflow } }

theorem ControlChange.busWrite_apply (φ : ControlChange) (s : State) (a : Word) (v : Byte) :
    (φ.apply s).busWrite a v = φ.apply (s.busWrite a v) := by
  rw [State.busWrite_eq, State.busWrite_eq]
  rfl

theorem ControlChange.push_apply (φ : ControlChange) (s : State) (v : Byte) :
    (φ.apply s).push v = φ.apply (s.push v) := by
  rw [State.push_eq, State.push_eq, φ.busWrite_apply]
  rfl

theorem ControlChange.pushWord_apply (φ : ControlChange) (s : State) (w : Word) :
    (φ.apply s).pushWord w = φ.apply (s.pushWord w) := by
  rw [State.pushWord_eq_push_push, State.pushWord_eq_push_push, φ.push_apply, φ.push_apply]

theorem ControlChange.trapped_apply (φ : ControlChange) (s : State) : (φ.apply s).trapped = φ.apply s.trapped := by
  have hflags : ((φ.apply s).setFlag .I true).setFlag .B true = φ.apply ((s.setFlag .I true).setFlag .B true) := rfl
  rw [State.trapped, State.trapped, hflags, φ.pushWord_apply, φ.push_apply]
  rfl

/-- A row without an operand does the same to the changed state. -/
theorem ControlChange.impliedResult_apply (φ : ControlChange) {i : Instr} (hi : operandOf i = none) (s : State) :
    impliedResult i (φ.apply s) = φ.apply (impliedResult i s) := by
  cases i with
  | pha => exact φ.push_apply s _
  | php => exact φ.push_apply s _
  | pla => rw [impliedResult_pla, impliedResult_pla]; rfl
  | plp => rw [impliedResult_plp, impliedResult_plp]; rfl
  | rts => rw [impliedResult, impliedResult, State.popWord_eq, State.popWord_eq]; rfl
  | rti =>
    rw [impliedResult, impliedResult, State.returnFromTrap_eq, State.returnFromTrap_eq]; rfl
  | brk =>
    rw [impliedResult, impliedResult, State.takeTrap_eq, State.takeTrap_eq, φ.trapped_apply]; rfl
  | inx | iny | dex | dey | aslAcc | lsrAcc | rolAcc | rorAcc | tax | tay | txa | tya | tsx | txs | clc | sec
    | cli | sei | cld | sed | clv | nop => rfl
  | _ => cases hi

/-- A row with an operand does the same to the changed states. -/
theorem ControlChange.operandResult_apply (φ : ControlChange) (m : Mnemonic) (s : State) (a : Word) (u : State) (v : Byte)
    (w : State) : operandResult m (φ.apply s) a (φ.apply u) v (φ.apply w) = φ.apply (operandResult m s a u v w) := by
  have branch (taken : Bool) : (if taken = true then (φ.apply u).setPc a else φ.apply u) =
      φ.apply (if taken = true then u.setPc a else u) := by
    cases taken <;> rfl
  have modify (r sr : Byte) : (((φ.apply u).accessed 1).busWrite a r).setSr sr =
      φ.apply (((u.accessed 1).busWrite a r).setSr sr) :=
    congrArg (·.setSr sr) (φ.busWrite_apply (u.accessed 1) a r)
  cases m with
  | sta | stx | sty => exact φ.busWrite_apply u a _
  | inc | dec | asl | lsr | rol | ror => exact modify _ _
  | jsr =>
    rw [operandResult, operandResult, State.busReadWord_eq, State.busReadWord_eq]
    exact congrArg (fun t => (t.accessed 2).setPc (joinBytes ((t.accessed 1).peek (s.pc + 1)) (t.peek s.pc)))
      (φ.pushWord_apply s (s.pc + 1))
  | bcc | bcs | beq | bne | bpl | bmi | bvc | bvs => exact branch _
  | _ => rfl

/-- Only mode IND has a pointer operand of JMP. -/
theorem mode_of_operandOf_ind {i : Instr} {w : Word} (h : operandOf i = some (.ind w)) : i.mode = .ind := by
  unfold operandOf at h
  split at h <;> cases h
  assumption

/-! ### Resolving and stepping under a change -/

/-- The change keeps what the resolver makes of an operand: `COMPAT` where the operand is a pointer of JMP, and
`ZP_INDEX_OVERFLOW` unless it is Fault. -/
def ControlChange.KeepsOperand (φ : ControlChange) (o : Operand) (s : State) : Prop :=
  ((∃ w, o = .ind w) → φ.compat s.cfg.compat = s.cfg.compat) ∧
  (s.cfg.zpIndexOverflow = .wrap → φ.zpIndexOverflow .wrap = .wrap)

/-- A zero-page index that resolves stays below the overflow or wraps, and does so under the change. -/
theorem ControlChange.zpIndexed_apply (φ : ControlChange) {b i : Byte} {s u : State} {a : Word}
    (hφ : s.cfg.zpIndexOverflow = .wrap → φ.zpIndexOverflow .wrap = .wrap) (h : zpIndexed b i s = .ok (a, u)) :
    zpIndexed b i (φ.apply s) = .ok (a, φ.apply u) := by
  by_cases hsum : 0xFF < b.toNat + i.toNat
  · cases hcfg : s.cfg.zpIndexOverflow with
    | fault => rw [zpIndexed_of_fault hsum hcfg] at h; cases h
    | wrap =>
      have hcfg' : (φ.apply s).cfg.zpIndexOverflow = .wrap :=
        (congrArg φ.zpIndexOverflow hcfg).trans (hφ hcfg)
      rw [zpIndexed_of_wrap hsum hcfg] at h
      obtain ⟨rfl, rfl⟩ := Prod.mk.inj (Except.ok.inj h)
      exact zpIndexed_of_wrap hsum hcfg'
  · rw [zpIndexed_of_le (Nat.le_of_not_lt hsum)] at h
    cases h
    exact zpIndexed_of_le (Nat.le_of_not_lt hsum) _

theorem ControlChange.ea_apply (φ : ControlChange) {o : Operand} {s u : State} {a : Word} (hφ : φ.KeepsOperand o s)
    (h : o.ea s = .ok (a, u)) : o.ea (φ.apply s) = .ok (a, φ.apply u) := by
  obtain ⟨hcompat, hzp⟩ := hφ
  cases o with
  | zpx b | zpy b => exact φ.zpIndexed_apply hzp h
  | ind w =>
    have hcompat' : (φ.apply s).cfg.compat = s.cfg.compat := hcompat ⟨w, rfl⟩
    cases h
    simp only [Operand.ea, indirectWord, hcompat']
    rfl
  | _ => cases h; rfl

theorem ControlChange.read_apply (φ : ControlChange) {o : Operand} {s u : State} {v : Byte} (hφ : φ.KeepsOperand o s)
    (h : o.read s = .ok (v, u)) : o.read (φ.apply s) = .ok (v, φ.apply u) := by
  obtain ⟨a, w, ha⟩ := Operand.ea_ok_of_read_ok h
  by_cases hi : ∃ b, o = .imm b
  · obtain ⟨b, rfl⟩ := hi
    cases h
    rfl
  · have hi (b : Byte) (e : o = .imm b) : False := hi ⟨b, e⟩
    rw [Operand.read_of_ea_ok hi ha] at h
    cases h
    exact Operand.read_of_ea_ok hi (φ.ea_apply hφ ha)

/-- An operation that completes does the same to the changed state. -/
theorem ControlChange.exec_apply (φ : ControlChange) {i : Instr} {s t : State}
    (hφ : ∀ o, operandOf i = some o → φ.KeepsOperand o s) (h : exec i s = .next t) :
    exec i (φ.apply s) = .next (φ.apply t) := by
  obtain ⟨ho, rfl⟩ | ⟨o, a, n, v, k, ho, ha, hv, rfl⟩ := exec_next h
  · rw [exec_implied ho, φ.impliedResult_apply ho]
  · rw [exec_operand ho, execOperand_next _ (φ.ea_apply (hφ o ho) ha) (φ.read_apply (hφ o ho) hv),
      φ.operandResult_apply]

/-- A step that completes does the same to the changed state: the fetch looks at none of the changed cells. -/
theorem ControlChange.step_apply (φ : ControlChange) {s t : State}
    (hφ : ∀ i o, s.fetchedInstr = some i → operandOf i = some o → φ.KeepsOperand o s) (h : step s = .next t) :
    step (φ.apply s) = .next (φ.apply t) := by
  obtain ⟨i, u, hf, hexec, rfl⟩ := step_next h
  have hexec' := φ.exec_apply (s := s.fetched (fetchLength i)) (fun o ho => hφ i o hf ho) hexec
  have hcycles : (φ.apply u).addCycles i.baseCycles = φ.apply (u.addCycles i.baseCycles) := by
    simp only [State.addCycles, ControlChange.apply, Nat.add_right_comm]
  rw [← hcycles]
  exact step_eq_of_exec (s := φ.apply s) hf hexec'

/-- Settles O56: `step_apply` for added cycles and a set session flag. -/
theorem stepIgnoresCyclesAndRunning : Obligations.StepIgnoresCyclesAndRunning := fun _ _ k b h =>
  ControlChange.step_apply ⟨k, fun _ => b, id, id⟩ (fun _ _ _ _ => ⟨fun _ => rfl, fun _ => rfl⟩) h

/-- Settles O57: `step_apply` for `COMPAT`, which only a pointer operand of JMP reads. -/
theorem onlyIndirectJumpReadsCompat : Obligations.OnlyIndirectJumpReadsCompat := by
  intro s t c i hf hmode h
  refine ControlChange.step_apply ⟨0, id, fun _ => c, id⟩ (fun j o hj ho => ⟨?_, fun _ => rfl⟩) h
  rintro ⟨w, rfl⟩
  obtain rfl : i = j := Option.some.inj (hf.symm.trans hj)
  exact absurd (mode_of_operandOf_ind ho) hmode

/-- Settles O58: step by step, by `step_apply` for the setting Wrap, which changes nothing where Fault did not fault. -/
theorem safeUnderFaultSameUnderWrap : Obligations.SafeUnderFaultSameUnderWrap := by
  intro n
  induction n with
  | zero => intro s t _ h; cases h; rfl
  | succ n ih =>
    intro s t hs h
    obtain ⟨u, hstep, hrest⟩ := andThen_eq_next h
    obtain ⟨hcfg, -, -⟩ := stepKeepsConfiguration s u hstep
    have hstep' := ControlChange.step_apply ⟨0, id, id, fun _ => .wrap⟩
      (fun _ _ _ _ => ⟨fun _ => rfl, fun _ => rfl⟩) hstep
    refine (congrArg (andThen · (stepsThen n)) hstep').trans ?_
    exact ih u t (by rw [hcfg, hs]) hrest

end Sys2Proof.Machine
end

section
/-! The proofs about the host's flag set (spec/10_state.md R20) and its sessions (R24, R225 to R227). -/

namespace Sys2Proof.Machine

/-! ### The host's flag set -/

/-- OR-ing in a mask sets its flag and keeps the others. -/
theorem getFlag_or_mask (f g : Flag) (sr : Byte) : getFlag f (sr ||| g.mask) = (getFlag f sr || f == g) := by
  refine (getFlag_putFlag g f true sr).trans ?_
  by_cases h : f = g <;> simp [h]

/-- Settles O2, by induction on the list of flags. -/
theorem encodeFlagsOnlySets : Obligations.EncodeFlagsOnlySets := by
  intro flags
  induction flags with
  | nil => intro sr f; simp [encodeFlags]
  | cons p rest ih =>
    intro sr f
    obtain ⟨g, b⟩ := p
    have hpair : ((f, true) == (g, b)) = (f == g && true == b) := rfl
    rw [encodeFlags, ih, List.contains_cons, hpair]
    cases b with
    | false => simp
    | true => simp [getFlag_or_mask, Bool.or_assoc]

/-! ### Single-steps and continuous runs -/

theorem step_ne_refused (s : State) (x : Refusal) : step s ≠ .refused x := by
  cases hf : s.fetchedInstr with
  | none => rw [step_of_undefined hf]; exact nofun
  | some i =>
    rw [step_of_fetched hf]
    by_cases hi : IndexFaults i (s.fetched (fetchLength i))
    · rw [exec_of_indexFaults hi]; exact nofun
    · obtain ⟨t, ht⟩ := exec_of_not_indexFaults hi
      rw [ht]; exact nofun

/-- The session flag decides nothing in a step. -/
theorem step_setRunning {s t : State} (b : Bool) (h : step s = .next t) :
    step (s.setRunning b) = .next (t.setRunning b) :=
  stepIgnoresCyclesAndRunning s t 0 b h

theorem singleStep_of_next (callback : State → List HostMove) {s t : State} (h : step s = .next t) :
    singleStep callback s = hostMoves (callback (t.setRunning false)) (t.setRunning false) := by
  rw [singleStep, step_setRunning true h]
  rfl

/-- A step that faults does so with the session flag set too: were the flagged step to complete, so would the other. -/
theorem singleStep_of_fault (callback : State → List HostMove) {s : State} {f : Fault} (h : step s = .fault f) :
    ∃ g, singleStep callback s = .fault g := by
  cases hstep : step (s.setRunning true) with
  | next t =>
    have hnext : step s = .next (t.setRunning s.running) := step_setRunning (s := s.setRunning true) s.running hstep
    exact nomatch h.symm.trans hnext
  | fault g => exact ⟨g, by rw [singleStep, hstep]; rfl⟩
  | refused x => exact absurd hstep (step_ne_refused _ x)

/-- A first batch that leaves the session flag clear is the last. -/
theorem continuousRun_of_first_stopped {batch : Nat → State → List Event} {callback : Nat → State → List HostMove}
    {s t : State} (n : Nat) (h : runBatch (batch 0 (beginRun s)) (callback 0) (beginRun s) = .next t)
    (ht : t.running = false) : continuousRun batch callback (n + 1) s = some (.next t) := by
  have hrunning : (beginRun s).running = true := rfl
  rw [continuousRun, runBatches, if_pos hrunning, h]
  exact runBatches_of_stopped ht

/-! ### Runs until `HALT` -/

/-- `t` is the first of the run's between-step states that satisfies `halt`, the one it begins in included. -/
def FirstHaltedAt (halt : State → Bool) (es : List Event) (s t : State) : Prop :=
  halt t = true ∧ ∃ k, k ≤ es.length ∧ runEvents (es.take k) s = .next t ∧
    ∀ j, j < k → ∃ u, runEvents (es.take j) s = .next u ∧ halt u = false

theorem firstHaltedAt_of_halt {halt : State → Bool} {es : List Event} {s t : State} (h : halt s = true) :
    FirstHaltedAt halt es s t ↔ s = t := by
  constructor
  · rintro ⟨-, k, -, hrun, hbefore⟩
    cases k with
    | zero => exact Host.Outcome.next.inj hrun
    | succ k =>
      obtain ⟨u, hu, hhalt⟩ := hbefore 0 k.succ_pos
      cases hu
      exact absurd (h.symm.trans hhalt) (by decide)
  · rintro rfl
    exact ⟨h, 0, Nat.zero_le _, rfl, fun j hj => absurd hj j.not_lt_zero⟩

theorem not_firstHaltedAt_nil {halt : State → Bool} {s t : State} (h : halt s = false) :
    ¬ FirstHaltedAt halt [] s t := by
  rintro ⟨hhalt, k, hk, hrun, -⟩
  obtain rfl : k = 0 := Nat.le_zero.1 hk
  cases hrun
  exact absurd (h.symm.trans hhalt) (by decide)

/-- From a state that does not satisfy `halt` the first that does is the one the rest of the run meets first. -/
theorem firstHaltedAt_cons {halt : State → Bool} {e : Event} {es : List Event} {s t : State} (h : halt s = false) :
    FirstHaltedAt halt (e :: es) s t ↔ ∃ u, runEvent e s = .next u ∧ FirstHaltedAt halt es u t := by
  constructor
  · rintro ⟨hhalt, k, hk, hrun, hbefore⟩
    cases k with
    | zero => cases hrun; exact absurd (h.symm.trans hhalt) (by decide)
    | succ k =>
      obtain ⟨u, hu, hrest⟩ := andThen_eq_next hrun
      refine ⟨u, hu, hhalt, k, Nat.le_of_succ_le_succ hk, hrest, fun j hj => ?_⟩
      obtain ⟨w, hw, hhaltW⟩ := hbefore (j + 1) (Nat.succ_lt_succ hj)
      rw [List.take_succ_cons, runEvents_cons, hu] at hw
      exact ⟨w, hw, hhaltW⟩
  · rintro ⟨u, hu, hhalt, k, hk, hrun, hbefore⟩
    refine ⟨hhalt, k + 1, Nat.succ_le_succ hk, ?_, fun j hj => ?_⟩
    · rw [List.take_succ_cons, runEvents_cons, hu]
      exact hrun
    · cases j with
      | zero => exact ⟨s, rfl, h⟩
      | succ j =>
        rw [List.take_succ_cons, runEvents_cons, hu]
        exact hbefore j (Nat.lt_of_succ_lt_succ hj)

/-- A run until `HALT` ends normally where `halt` first holds; by induction on the events. -/
theorem runUntil_eq_next_iff {halt : State → Bool} {es : List Event} {s t : State} :
    runUntil halt es s = some (.next t) ↔ FirstHaltedAt halt es s t := by
  induction es generalizing s with
  | nil =>
    cases h : halt s with
    | true => simp [runUntil_of_halt h, firstHaltedAt_of_halt h]
    | false => simp [runUntil, h, not_firstHaltedAt_nil h]
  | cons e es ih =>
    cases h : halt s with
    | true => simp [runUntil_of_halt h, firstHaltedAt_of_halt h]
    | false =>
      rw [firstHaltedAt_cons h]
      cases he : runEvent e s with
      | next u => simp [runUntil_cons_next h he, ih]
      | fault f => simp [runUntil, h, he]
      | refused x => simp [runUntil, h, he]

/-- Settles O60: single-steps, acts of the host, continuous runs and runs until `HALT`, each by its own rule. -/
theorem sessionsStepTheCore : Obligations.SessionsStepTheCore :=
  ⟨fun callback _ _ => singleStep_of_next callback,
    fun callback _ _ => singleStep_of_fault callback,
    fun _ _ _ => hostMove_keeps,
    fun _ _ n _ _ => ⟨runBatches_stopped, continuousRun_of_first_stopped n⟩,
    fun _ _ _ _ => runUntil_eq_next_iff⟩

end Sys2Proof.Machine
end
